-- ==== Sys2Proof/Word.lean ====
section
/-! DEFINITION. The word types of the BKS410: bytes, 16-bit numbers and 32-bit station times (spec 00, "Station time" and "Counts and sequence numbers"; spec 12). -/

namespace Sys2Proof

/-- A byte of a frame, of the configuration image or of a maintainer line. -/
abbrev Byte := BitVec 8

/-- A 16-bit number: cumulative counts, the crossing identity, CRC values. -/
abbrev Half := BitVec 16

/-- A station time: the 32-bit wrapping microsecond counter or millisecond count (spec 00, "Station time"). -/
abbrev Time := BitVec 32

end Sys2Proof
end

