-- ==== Sys2Proof/Syntax.lean ====
section
/-! DEFINITION. The commands of the BKS410: one constructor of `Instr` for each row of spec/opcode_table.json, in the table's order, and the
types of their operands. Every command carries `dt`, the microseconds that have passed since the command before it (DESIGN CHOICE log 1). -/

namespace Sys2Proof

/-- The two crossing lines (R63). -/
inductive Line where
  | a
  | b
deriving DecidableEq, Repr

/-- The two heads of a detection point, by position in the slot (01, opening: H1 or H3 the first, H2 or H4 the second). -/
inductive HeadPos where
  | first
  | second
deriving DecidableEq, Repr

/-- A DP slot of the station (01): 0 on heads H1 and H2, 1 on heads H3 and H4. -/
abbrev Slot := Fin 2

/-- The levels of the two heads of a slot at their first samples after an event (R12, R17), in threshold codes (R2). -/
structure Levels where
  first : Nat
  second : Nat
deriving DecidableEq, Repr

/-- Why a sweep is abandoned (R11): a raw sample of the watched head, with its level, or a bounding section that left CLEAR. -/
inductive AbandonCause where
  | watchedHead (level : Nat)
  | sectionNotClear
deriving DecidableEq, Repr

/-- The three road-light aspects of a post (R142). -/
inductive Aspect where
  | amber
  | red1
  | red2
deriving DecidableEq, Repr

/-- The currents of a post's six lamp strings in mA, main and second string of each aspect (R142). -/
structure LampCurrents where
  amberMain : Nat
  amberSecond : Nat
  red1Main : Nat
  red1Second : Nat
  red2Main : Nat
  red2Second : Nat
deriving DecidableEq, Repr

/-- Which unit's cold test pulse ends (TEST_PULSE_END: lamp or DCI strings). -/
inductive PulseUnit where
  | lamps
  | dcis
deriving DecidableEq, Repr

/-- The barrier's position contacts (R152). -/
inductive Contact where
  | up
  | down
deriving DecidableEq, Repr

/-- The inputs that CONTACT_SAMPLE samples every 1 ms (R152, R193). -/
inductive FieldInput where
  | contact (c : Contact)
  | key
deriving DecidableEq, Repr

/-- The kind of a section reset (R60). -/
inductive ResetKind where
  | sweep
  | direct
deriving DecidableEq, Repr

/-- A byte that has come from the box on the signaller line or from the maintainer, with the station time in microseconds at its end (R169, R195). -/
structure RxByte where
  time : Time
  byte : Byte
deriving DecidableEq, Repr

namespace Machine

/-- The condition kinds, in the order of their numbers 0 to 19 (R172). -/
inductive CondKind where
  | configInvalid
  | layoutMismatch
  | peerLost
  | sectionUnknown
  | sectionDisturbed
  | dpFaulted
  | barrierStalled
  | barrierContacts
  | aspectFailed
  | sequenceError
  | lateArrival
  | peerDisagrees
  | txBlocked
  | dciFailed
  | aspectDegraded
  | lineFailed
  | longClosure
  | calibrationFailed
  | speedImplausible
  | configClamped
deriving DecidableEq, Repr

/-- A condition: its kind and its subject, a subject number and an item (R172). -/
structure CondId where
  kind : CondKind
  subject : Fin 16
  item : Fin 8
deriving DecidableEq, Repr

end Machine

/-- The commands: the rows of spec/opcode_table.json. -/
inductive Instr where
  /-- POWER_ON_RESET (R194). -/
  | powerOnReset (dt : Nat)
  /-- LOADING_END (R192): whether the configuration memory answered, and, where the byte read back is not the one written, what was read back (R189). -/
  | loadingEnd (dt : Nat) (answers : Bool) (readBack : Option Byte)
  /-- ACCEPTED_EDGE (R3): the levels of the heads of the slot whose sample is the N-th consecutive differing one; both for a simultaneous pair (R15). -/
  | acceptedEdge (dt : Nat) (slot : Slot) (first second : Option Nat)
  /-- FIRST_COVER_AGED (R14). -/
  | firstCoverAged (dt : Nat) (slot : Slot)
  /-- HEAD_SUPPLY_CHECK (R6): the supply reading of one head in mA, and the heads' levels for a first level (R12). -/
  | headSupplyCheck (dt : Nat) (slot : Slot) (head : HeadPos) (mA : Nat) (levels : Levels)
  /-- CALIBRATION_TIMER_EXPIRY (R8). -/
  | calibrationTimerExpiry (dt : Nat) (slot : Slot)
  /-- DUE_SWEEP_START (R7). -/
  | dueSweepStart (dt : Nat) (slot : Slot)
  /-- PROBE_WINDOW_END (R9): the lowest level of the window's samples, and the heads' levels at their first samples after the sweep (R12, R17). -/
  | probeWindowEnd (dt : Nat) (slot : Slot) (lowest : Nat) (levels : Levels)
  /-- SWEEP_ABANDONED (R11). -/
  | sweepAbandoned (dt : Nat) (slot : Slot) (cause : AbandonCause) (levels : Levels)
  /-- DEADLINE_EXPIRY (R33). -/
  | deadlineExpiry (dt : Nat) (sec : Nat)
  /-- RELEASE_TIMER_EXPIRY (R119). -/
  | releaseTimerExpiry (dt : Nat)
  /-- STANDING_TEST_TIME (R120). -/
  | standingTestTime (dt : Nat) (sec : Nat)
  /-- DWELL_END (R129). -/
  | dwellEnd (dt : Nat)
  /-- WAIT_LIMIT_EXPIRY (R131). -/
  | waitLimitExpiry (dt : Nat)
  /-- FLASH_CYCLE_BOUNDARY (R146). -/
  | flashCycleBoundary (dt : Nat)
  /-- FLASH_HALF_POINT (R147). -/
  | flashHalfPoint (dt : Nat)
  /-- CORRECTION_LENGTHEN_END (R146). -/
  | correctionLengthenEnd (dt : Nat)
  /-- LAMP_HOT_SAMPLE (R147): the currents of the aspect's two strings in mA. -/
  | lampHotSample (dt : Nat) (aspect : Aspect) (main second : Nat)
  /-- LAMP_COLD_TEST (R148). -/
  | lampColdTest (dt : Nat)
  /-- LAMP_TEST_SAMPLE (R148). -/
  | lampTestSample (dt : Nat) (currents : LampCurrents)
  /-- TEST_PULSE_END (R148, R164). -/
  | testPulseEnd (dt : Nat) (unit : PulseUnit)
  /-- CONTACT_CHANGE (R152): the N-th consecutive differing sample of a contact. -/
  | contactChange (dt : Nat) (contact : Contact)
  /-- DEAD_TIME_END (R154). -/
  | deadTimeEnd (dt : Nat)
  /-- TRAVEL_TIMEOUT (R155). -/
  | travelTimeout (dt : Nat)
  /-- CONTACT_FAULT_TIMEOUT (R156). -/
  | contactFaultTimeout (dt : Nat)
  /-- LOCKOUT_LOWER_TIMER (R159). -/
  | lockoutLowerTimer (dt : Nat)
  /-- KEY_INPUT_CHANGE (R193). -/
  | keyInputChange (dt : Nat)
  /-- DCI_HOT_SAMPLE (R164): the string current of one output in mA. -/
  | dciHotSample (dt : Nat) (out : Fin 2) (mA : Nat)
  /-- DCI_COLD_TEST (R164). -/
  | dciColdTest (dt : Nat)
  /-- DCI_TEST_SAMPLE (R164): the string currents of outputs 0 and 1 in mA. -/
  | dciTestSample (dt : Nat) (mA0 mA1 : Nat)
  /-- CARRIER_START (R64): another station's carrier is seen on a line. -/
  | carrierStart (dt : Nat) (line : Line)
  /-- END_OF_CARRIER (R63): the last other station's carrier on a line ends. -/
  | endOfCarrier (dt : Nat) (line : Line)
  /-- IDLE_GAP_END (R64). -/
  | idleGapEnd (dt : Nat)
  /-- HOLDOFF_END (R64). -/
  | holdoffEnd (dt : Nat)
  /-- READBACK_MISMATCH (R66): the line, and whether another station's carrier stands on it once this station has stopped. -/
  | readbackMismatch (dt : Nat) (line : Line) (carrierRemains : Bool)
  /-- FRAME_ATTEMPT_END (R66). -/
  | frameAttemptEnd (dt : Nat)
  /-- STATUS_PERIOD_EXPIRY (R72). -/
  | statusPeriodExpiry (dt : Nat)
  /-- STATUS_HOLDBACK_END (R72). -/
  | statusHoldbackEnd (dt : Nat)
  /-- FRAME_RECEIVED (R74): the line and the bytes from the start of carrier to its end. -/
  | frameReceived (dt : Nat) (line : Line) (bytes : List Byte)
  /-- COPY_FILTER_ENTRY_EXPIRY (R76): the oldest entry leaves. -/
  | copyFilterEntryExpiry (dt : Nat)
  /-- LINE_SILENCE (R79). -/
  | lineSilence (dt : Nat) (line : Line)
  /-- STRIKE_TAKEN (R35). -/
  | strikeTaken (dt : Nat)
  /-- STATUS_TAKEN (R94). -/
  | statusTaken (dt : Nat)
  /-- HAIL_TAKEN (R95). -/
  | hailTaken (dt : Nat)
  /-- ANSWER_TAKEN (R95). -/
  | answerTaken (dt : Nat)
  /-- RESET_ORDER_TAKEN (R61). -/
  | resetOrderTaken (dt : Nat)
  /-- HAIL_TIMER (R88). -/
  | hailTimer (dt : Nat)
  /-- JOIN_WINDOW_END (R91). -/
  | joinWindowEnd (dt : Nat)
  /-- PEER_AGE_TIMEOUT (R98). -/
  | peerAgeTimeout (dt : Nat) (station : Nat)
  /-- AGREEMENT_TOLERANCE_REACHED (R101). -/
  | agreementToleranceReached (dt : Nat) (station : Nat)
  /-- INFO_CONDITION_EXPIRY (R175). -/
  | infoConditionExpiry (dt : Nat) (cond : Machine.CondId)
  /-- INDICATION_DUE (R166). -/
  | indicationDue (dt : Nat)
  /-- NOTICE_SPACING_END (R165). -/
  | noticeSpacingEnd (dt : Nat)
  /-- SIGNALLER_FRAME_END (R168). -/
  | signallerFrameEnd (dt : Nat)
  /-- ACK (R170): the inward bytes that have come since the last command of the line, those that end the frame among them. -/
  | ack (dt : Nat) (bytes : List RxByte)
  /-- QUERY (R171): as for ACK. -/
  | query (dt : Nat) (bytes : List RxByte)
  /-- SIGNALLER_BYTE_TIMEOUT (R169): the inward bytes that came before the silence, and the late byte where one has come. -/
  | signallerByteTimeout (dt : Nat) (bytes : List RxByte)
  /-- SIGNALLER_FRAME_MALFORMED (R169): the inward bytes up to the one at which the fault is found. -/
  | signallerFrameMalformed (dt : Nat) (bytes : List RxByte)
  /-- SHOW_PEERS (R196). -/
  | showPeers (dt : Nat)
  /-- SHOW_SECTIONS (R196). -/
  | showSections (dt : Nat)
  /-- SHOW_DETECTION (R196). -/
  | showDetection (dt : Nat)
  /-- SHOW_NOTICES (R196). -/
  | showNotices (dt : Nat)
  /-- SHOW_FIRST_FAULT (R196). -/
  | showFirstFault (dt : Nat)
  /-- READ_LATCHES (R187). -/
  | readLatches (dt : Nat)
  /-- READ_MISMATCHES (R103). -/
  | readMismatches (dt : Nat)
  /-- CALIBRATE (R7): the DP id of the command's argument. -/
  | calibrate (dt : Nat) (dp : Nat)
  /-- RESET_SECTION (R60): the section id and the kind of the command's arguments. -/
  | resetSection (dt : Nat) (sec : Nat) (kind : ResetKind)
  /-- CLEAR_FIRST_FAULT (R186). -/
  | clearFirstFault (dt : Nat)
  /-- RESTART (R197). -/
  | restart (dt : Nat)
  /-- UNKNOWN_COMMAND (R195): the bytes that end the line, carriage return included. -/
  | unknownCommand (dt : Nat) (bytes : List RxByte)
  /-- COMMAND_WHILE_BUSY (R195): the bytes that end the line, carriage return included. -/
  | commandWhileBusy (dt : Nat) (bytes : List RxByte)
  /-- COMMAND_TIMEOUT (R195): the bytes of the command that came before the silence, and those that came after it, if any. -/
  | commandTimeout (dt : Nat) (bytes : List RxByte)
  /-- MAINTAINER_REPLY_END (R195). -/
  | maintainerReplyEnd (dt : Nat)
  /-- SUPPLY_RESTORED (R194). -/
  | supplyRestored (dt : Nat)
  /-- COMPARATOR_SAMPLE (R3): one sample of one head that is not the N-th differing one, by its level. -/
  | comparatorSample (dt : Nat) (slot : Slot) (head : HeadPos) (level : Nat)
  /-- CONTACT_SAMPLE (R152): one sample of a contact (made or open) or of the key input (active or inactive) that does not change its filtered level. -/
  | contactSample (dt : Nat) (input : FieldInput) (level : Bool)
deriving DecidableEq, Repr

end Sys2Proof
end

