-- ==== Sys2Proof/Decode.lean ====
section
/-! DEFINITION. The decoder of command words: spec/opcode_table.json gives no row any bits, so no word spells a command. -/

namespace Sys2Proof

/-- The command that a word spells by the table's bits. Every row of the table has an empty list of fields, so the answer is none for every word. -/
def decodeTableWord (_nbits _w : Nat) : Option Instr := none

end Sys2Proof
end

