-- ==== Sys2Proof/Config.lean ====
section
/-! DEFINITION. The values that the manual leaves open and no rule fixes: constants with no body, so that nothing can be proved of their value. -/

namespace Sys2Proof

/-- The byte that the station holds as restart count when the configuration memory does not answer: the manual says what the station
does then (blind lockout, R190) and not what it read. DESIGN CHOICE log 8: a free value, applied to the state's own counter. Safe. -/
opaque Config.freeRestartCount : Nat → Byte

end Sys2Proof
end

