-- ==== Sys2Proof/Machine/State.lean ====
section
/-! DEFINITION. The state of a BKS410 station as plain data, every piece the manual names (INVENTORY.md lists them with their rules), and the state
right after a power-on reset. -/

namespace Sys2Proof.Machine

/-! ### The configuration image in force (R188, R191) -/

/-- A role set (00, "Stations and roles"). -/
structure Roles where
  detect : Bool
  post : Bool
  report : Bool
deriving DecidableEq, Repr

/-- An entry of the station list (R188). -/
structure StationEntry where
  number : Nat
  roles : Roles
  signaller : Bool
deriving DecidableEq, Repr

/-- An entry of the DP table (R188): `nearSecond` where the slot's second head is the one nearer the crossing (R1). -/
structure DpEntry where
  owner : Nat
  slot : Slot
  nearSecond : Bool
  distance : Nat
  spacing : Nat
deriving DecidableEq, Repr

/-- An entry of the DCI assignments (R188, R161). -/
structure DciEntry where
  station : Nat
  out : Fin 2
  endB : Bool
  track0 : Bool
  track1 : Bool
deriving DecidableEq, Repr

/-- The seventeen timing constants in force, in their table units (R191). -/
structure Timing where
  filterLength : Nat
  calInterval : Nat
  calMargin : Nat
  warningTime : Nat
  maxDelay : Nat
  transit : Nat
  minSweepAxles : Nat
  statusPeriod : Nat
  retryLimit : Nat
  silenceLimit : Nat
  joinWindow : Nat
  timeoutFactor : Nat
  tolerance : Nat
  minOpen : Nat
  maxClosed : Nat
  flashCycle : Nat
  travelTimeout : Nat
deriving DecidableEq, Repr

/-- A pair of current limits in mA (R188). -/
structure Limits where
  low : Nat
  high : Nat
deriving DecidableEq, Repr

/-- The red field of a pattern (R125). -/
inductive RedField where
  | off
  | alternate
  | bothSteady
deriving DecidableEq, Repr

/-- The barrier field of a step record (R125). -/
inductive BarrierField where
  | none
  | lower
  | raise
  | release
deriving DecidableEq, Repr

/-- The wait field of a step record (R125). -/
inductive WaitFor where
  | none
  | ownDown
  | ownUp
  | allDown
  | allUp
deriving DecidableEq, Repr

/-- A step record (R125); `next` is none for LAST. -/
structure StepRec where
  amber : Bool
  red : RedField
  barrier : BarrierField
  dwell : Nat
  waitFor : WaitFor
  waitLimit : Option Nat
  next : Option Nat
deriving DecidableEq, Repr

/-- The step lists (R126). -/
inductive ListName where
  | close
  | opn
  | failed
deriving DecidableEq, Repr

/-- The values in force after the load check and the settling of constants (R188, R191). -/
structure Image where
  crossing : Half
  stations : List StationEntry
  tracks : Nat
  dps : List DpEntry
  dcis : List DciEntry
  own : Nat
  timing : Timing
  headBand : Limits
  amberLit : Limits
  amberTest : Limits
  red1Lit : Limits
  red1Test : Limits
  red2Lit : Limits
  red2Test : Limits
  dciLit : Limits
  dciTest : Limits
  startRestoring : Bool
  cmpPhase : Bool
  cmpSections : Bool
  cmpHealth : Bool
  steps : List StepRec
  closeHead : Nat
  openHead : Nat
  failedHead : Nat
deriving DecidableEq, Repr

/-! ### Heads and detection points (chapters 01 and 02) -/

/-- The supply state of a head (R6). -/
inductive SupplyState where
  | normal
  | openCircuit
  | shorted
deriving DecidableEq, Repr

/-- One wheel-sensor head: working threshold (R2), filter (R3), edge flags (R5), supply state (R6). -/
structure Head where
  threshold : Option Nat
  covered : Bool
  levelTaken : Bool
  run : Nat
  runStart : Time
  coverSeen : Bool
  clearSeen : Bool
  supply : SupplyState
  bad : Nat
  good : Nat
deriving DecidableEq, Repr

/-- The recogniser states (R14). -/
inductive RecogState where
  | idle
  | a1
  | a12
  | a2
  | b2
  | b21
  | b1
  | unordered
deriving DecidableEq, Repr

/-- The axle recogniser of a DP (R14): `aged` once the first-cover time is taken as 10 s before now. -/
structure Recog where
  state : RecogState
  firstCover : Time
  aged : Bool
  delta : Option Nat
  noSpeed : Bool
deriving DecidableEq, Repr

/-- The DP states; LOST belongs to the DP view alone (R18, R41). -/
inductive DpState where
  | working
  | calibrating
  | faulted
  | lost
deriving DecidableEq, Repr

/-- The sweep kinds (01, "The calibration sweep"). -/
inductive SweepKind where
  | start
  | periodic
  | commanded
  | recovery
deriving DecidableEq, Repr

/-- Why a sweep result is refused (R10, R12). -/
inductive RefuseReason where
  | noBoundary
  | tooLow
  | outOfWindow
  | abandoned
deriving DecidableEq, Repr

/-- The result of a head in the reply to CALIBRATE (R13). -/
inductive SweepResult where
  | accepted (threshold : Nat)
  | refused (reason : RefuseReason)
  | abandoned
  | notRun
deriving DecidableEq, Repr

/-- A running sweep (R9 to R13): `onOther` while the head farther from the crossing is under sweep, `waiting` while a START sweep waits for the
nearer head to read CLEAR through one window, `nearResult` the nearer head's result once its sweep has ended, `wasDue` whether the sweep was due at
its start (R8). -/
structure Sweep where
  kind : SweepKind
  onOther : Bool
  trial : Nat
  windowStart : Time
  waiting : Bool
  abandons : Nat
  wasDue : Bool
  nearResult : Option SweepResult
deriving DecidableEq, Repr

/-- One own detection point: its DP table entry (R1), heads, recogniser (R14), counts (R21), last speed (R27), unordered history (R16), state and
causes (R18), calibration timer and due state (R8), running sweep (R9). -/
structure DpUnit where
  id : Nat
  slot : Slot
  nearSecond : Bool
  distance : Nat
  spacing : Nat
  first : Head
  second : Head
  recog : Recog
  inn : Half
  out : Half
  epoch : Byte
  lastSpeed : Nat
  history : List Time
  state : DpState
  supplyCause : Bool
  thresholdCause : Bool
  unorderedCause : Bool
  calStart : Option Time
  due : Bool
  sweep : Option Sweep
deriving DecidableEq, Repr

/-! ### The section table and the DP view (chapter 03) -/

/-- The section kinds (R40). -/
inductive SectKind where
  | approachA
  | island
  | approachB
deriving DecidableEq, Repr

/-- The section states (R42). -/
inductive SectState where
  | clear
  | occupied
  | disturbed
  | unknown
  | restoring
deriving DecidableEq, Repr

/-- The entry tags (R51). -/
inductive Tag where
  | far
  | near
  | both
deriving DecidableEq, Repr

/-- Published cumulative counts with their epoch: a baseline or the latest counts of a DP (R40, R41). -/
structure Counts where
  inn : Half
  out : Half
  epoch : Byte
deriving DecidableEq, Repr

/-- A section record (R40): `baseOuter` for the DP at its outer or A end, `baseInner` for the DP at its island or B end. -/
structure Sect where
  id : Nat
  kind : SectKind
  balance : Nat
  state : SectState
  tag : Option Tag
  deadline : Option Time
  t0 : Option Time
  strikes : Nat
  held : Bool
  sweepAxles : Nat
  underlying : Option SectState
  awaited : List Nat
  baseOuter : Option Counts
  baseInner : Option Counts
deriving DecidableEq, Repr

/-- An entry of the DP view (R41). -/
structure ViewEntry where
  dp : Nat
  owner : Nat
  state : DpState
  latest : Option Counts
  headsClear : Bool
  lastSpeed : Nat
deriving DecidableEq, Repr

/-! ### Frames of the crossing line (R82 to R85) -/

/-- The phases (R105); `opened` is OPEN. -/
inductive Phase where
  | starting
  | opened
  | closing
  | closed
  | opening
  | failed
deriving DecidableEq, Repr

/-- The barrier states (R157). -/
inductive BarrierState where
  | up
  | down
  | lowering
  | raising
  | mid
  | stalled
  | contactFault
deriving DecidableEq, Repr

/-- The aspect states (R150). -/
inductive AspectState where
  | ok
  | degraded
  | failed
deriving DecidableEq, Repr

/-- The line health states (R78). -/
inductive Health where
  | good
  | qualifying
  | failed
deriving DecidableEq, Repr

/-- The join states (R86). -/
inductive JoinState where
  | loading
  | calibrating
  | hailing
  | joined
  | lockedOut
deriving DecidableEq, Repr

/-- The DP report of a STATUS (R22, R84). -/
structure DpReport where
  dp : Nat
  state : DpState
  headsClear : Bool
  inn : Half
  out : Half
  speed : Nat
deriving DecidableEq, Repr

/-- The post report of a STATUS (R84). -/
structure PostReport where
  barrier : BarrierState
  amber : AspectState
  red1 : AspectState
  red2 : AspectState
  flash : Nat
deriving DecidableEq, Repr

/-- The body of a STRIKE frame (R83). -/
structure StrikeBody where
  dp : Nat
  inn : Half
  out : Half
  epoch : Byte
  speed : Nat
  delay : Option Nat
deriving DecidableEq, Repr

/-- The body of a STATUS frame (R84). -/
structure StatusBody where
  roles : Roles
  epoch : Byte
  phase : Phase
  digest : Half
  healthA : Health
  healthB : Health
  dps : List DpReport
  post : Option PostReport
  sections : List SectState
  conds : List CondId
  condCount : Nat
deriving DecidableEq, Repr

/-- The body of a JOIN frame (R85): `answerTo` is none for a HAIL and the addressed station for an ANSWER. -/
structure JoinBody where
  roles : Roles
  digest : Half
  join : JoinState
  answerTo : Option Nat
deriving DecidableEq, Repr

/-- The body of a SERVICE frame of sub-kind RESET_ORDER (R85). -/
structure OrderBody where
  sec : Nat
  kind : ResetKind
  key : Bool
deriving DecidableEq, Repr

/-- The body of a frame on the crossing line (R82). -/
inductive Body where
  | strike (b : StrikeBody)
  | status (b : StatusBody)
  | join (b : JoinBody)
  | service (b : OrderBody)
deriving DecidableEq, Repr

/-- The frame kinds (R82). -/
inductive FrameKind where
  | strike
  | status
  | join
  | service
deriving DecidableEq, Repr

/-- A frame on the crossing line with its envelope (R82). -/
structure Frame where
  crossing : Half
  source : Nat
  seq : Byte
  body : Body
deriving DecidableEq, Repr

/-! ### The line controller (chapter 04) -/

/-- A request for a frame in the transmit queue, by which its key is known (R69). -/
inductive TxWhat where
  | strike (slot : Slot)
  | status
  | hail
  | answer (hailer : Nat)
  | order (sec : Nat) (kind : ResetKind) (key : Bool)
deriving DecidableEq, Repr

/-- A queued frame: attempt count (R67), sequence once assigned (R73), order and time of queueing (R70). -/
structure TxItem where
  what : TxWhat
  attempts : Nat
  seq : Option Byte
  ord : Nat
  queuedAt : Time
deriving DecidableEq, Repr

/-- The frame in flight (R66): the bytes on the line, the start of the attempt on both counters, the lines still driven, and whether it is not
retried (R71). -/
structure Flight where
  item : TxItem
  bytes : List Byte
  startUs : Time
  startMs : Time
  drivingA : Bool
  drivingB : Bool
  noRetry : Bool
deriving DecidableEq, Repr

/-- What the line controller keeps for one line: health record (R78), other stations' carrier (R63), reception waiting for an end of carrier (R66).
`history` holds true for a good CRC, newest first. -/
structure LineRec where
  health : Health
  history : List Bool
  lastValid : Time
  qualifying : Nat
  carrier : Bool
  blocked : Bool
deriving DecidableEq, Repr

/-- An entry of the copy filter (R76). -/
structure FilterEntry where
  source : Nat
  kind : FrameKind
  seq : Byte
  time : Time
deriving DecidableEq, Repr

/-- An accepted frame on its way to its block (R77): the lines its copies came on, its end time and the station's own flash offset at that time
(R145). -/
structure Accepted where
  source : Nat
  seq : Byte
  body : Body
  onA : Bool
  onB : Bool
  endMs : Time
  flashAt : Nat
deriving DecidableEq, Repr

/-- The line controller. -/
structure LineUnit where
  rxOn : Bool
  a : LineRec
  b : LineRec
  quietSince : Option Time
  gapEnd : Option Time
  queue : List TxItem
  nextOrd : Nat
  flight : Option Flight
  seqStrike : Byte
  seqStatus : Byte
  seqJoin : Byte
  seqService : Byte
  filter : List FilterEntry
  statusLeft : Option Time
  heldBack : Bool
  accepted : List Accepted
deriving DecidableEq, Repr

/-! ### The peer monitor (chapter 05) -/

/-- The join record's verdicts (R90). -/
inductive Verdict where
  | unheard
  | equal
  | different
deriving DecidableEq, Repr

/-- The join state and the join exchange (R86 to R92, R159, R190): `blind` and `declared` tell the two lockouts of the load check from the lockout of the
majority test. -/
structure JoinUnit where
  state : JoinState
  blind : Bool
  declared : Bool
  verdicts : List (Nat × Verdict)
  windowStart : Option Time
  nextHail : Time
  firstHailSent : Bool
  lowerStart : Option Time
deriving DecidableEq, Repr

/-- The states of a peer entry (R93). -/
inductive PeerState where
  | unheard
  | hailing
  | live
  | stale
  | mismatched
deriving DecidableEq, Repr

/-- A peer entry (R93); `tolerancePassed` marks that PEER_DISAGREES has been raised for the present run of differences (R101). -/
structure Peer where
  station : Nat
  roles : Roles
  state : PeerState
  lastHeard : Option Time
  lastStatus : Option Time
  age : Option Nat
  epoch : Option Byte
  lastSeq : Option Byte
  joinShown : Option JoinState
  phase : Option Phase
  post : Option PostReport
  dps : List DpReport
  sections : Option (List SectState)
  conds : List CondId
  condCount : Nat
  seenA : Bool
  seenB : Bool
  stickyPhase : Bool
  stickySections : Bool
  stickyHealth : Bool
  mismatchSince : Option Time
  tolerancePassed : Bool
deriving DecidableEq, Repr

/-! ### The phase unit and the sequencer (chapters 06 and 07) -/

/-- The phase unit (R105) with the deferred list (R137). -/
structure PhaseUnit where
  phase : Phase
  closedEntry : Option Time
  releaseStart : Option Time
  releaseExpired : Bool
  haltPending : Bool
  heldByRelease : List Nat
  standing : List (Nat × Time)
  deferred : Option ListName
deriving DecidableEq, Repr

/-- The sequencer states (R127). -/
inductive SeqState where
  | idle
  | running
  | halting
  | halted
  | stopped
  | done
  | error
deriving DecidableEq, Repr

/-- How a run ended (R127). -/
inductive EndHow where
  | done
  | halted
  | stopped
  | error
deriving DecidableEq, Repr

/-- The sequencer (R127). -/
structure SeqUnit where
  state : SeqState
  list : Option ListName
  step : Option Nat
  stepStart : Time
  waitStart : Option Time
  lowerReached : Bool
  result : Option (ListName × EndHow)
deriving DecidableEq, Repr

/-! ### The light and barrier unit and the indicators (chapters 08 and 09) -/

/-- The proving state of a lamp string (R149): `out` is OUT. -/
structure LampString where
  out : Bool
  failed : Nat
  good : Nat
deriving DecidableEq, Repr

/-- One aspect: its drive, the start of the lit interval that waits for its sample (R147), its two strings, and the two strings as they stood before the
results of the last sampled pulse, to which they return where the pattern discards those results (R148). -/
structure AspectRec where
  driven : Bool
  litStart : Option Time
  main : LampString
  second : LampString
  priorMain : LampString
  priorSecond : LampString
deriving DecidableEq, Repr

/-- A cold test pulse of the lamps (R148): which aspects it pulses, and whether it has been sampled. -/
structure LampPulse where
  start : Time
  amber : Bool
  red1 : Bool
  red2 : Bool
  sampled : Bool
deriving DecidableEq, Repr

/-- The road lights (R142, R147 to R150): the pattern in force, the three aspects, the cold test timer and pulse. -/
structure LightsUnit where
  amber : Bool
  red : RedField
  a0 : AspectRec
  a1 : AspectRec
  a2 : AspectRec
  coldStart : Option Time
  pulse : Option LampPulse
deriving DecidableEq, Repr

/-- How the flash offset runs (R143, R146): stopped at 0, counting from an origin at which it was 0, or held at 0 until a time. -/
inductive FlashMode where
  | stopped
  | running (origin : Time)
  | holding (till : Time)
deriving DecidableEq, Repr

/-- The flash timebase (R143, R144): `second` in the second half of the cycle. -/
structure FlashUnit where
  mode : FlashMode
  corr : Option Int
  second : Bool
  leader : Option Nat
deriving DecidableEq, Repr

/-- The filter of a contact or of the key input (R152, R193): level none until the first sample. -/
structure InputFilter where
  level : Option Bool
  run : Nat
deriving DecidableEq, Repr

/-- The barrier commands (R151). -/
inductive BarrierCmd where
  | release
  | lower
  | raise
deriving DecidableEq, Repr

/-- The barrier (R151 to R157): `lowerSpent` once LOWER's travel timer has run out in CONTACT_FAULT, `beforeBoth` the state before the second
contact was made. -/
structure BarrierUnit where
  command : BarrierCmd
  up : InputFilter
  down : InputFilter
  lowerOn : Bool
  raiseOn : Bool
  lowerStop : Time
  raiseStop : Time
  travelStart : Option Time
  stalled : Bool
  contactFault : Bool
  lowerSpent : Bool
  bothSince : Option Time
  beforeBoth : BarrierState
  state : BarrierState
deriving DecidableEq, Repr

/-- One assigned DCI output (R161, R163, R164): the sections of its end and tracks, PROVEN or DARK, drive, lit interval, string. -/
structure DciOut where
  sections : List Nat
  proven : Bool
  driven : Bool
  litStart : Option Time
  lamp : LampString
deriving DecidableEq, Repr

/-- A cold test pulse of the DCI strings (R164): which outputs it pulses, whether it has been sampled, and then the outputs' results, which wait for the
end of the pulse. -/
structure DciPulse where
  start : Time
  on0 : Bool
  on1 : Bool
  sampled : Bool
  good0 : Bool
  good1 : Bool
deriving DecidableEq, Repr

/-- The driver's crossing indicators: none for an unassigned output (R161). -/
structure DciUnit where
  out0 : Option DciOut
  out1 : Option DciOut
  coldStart : Option Time
  pulse : Option DciPulse
deriving DecidableEq, Repr

/-! ### Conditions, notices, records (chapter 10) and the signaller line (chapter 09) -/

/-- An entry of the condition set; `expiry` for the INFO kinds (R174, R175). -/
structure CondEntry where
  id : CondId
  expiry : Option Time
deriving DecidableEq, Repr

/-- The states of a notice entry (R179). -/
inductive NoticeState where
  | raised
  | acked
  | cleared
  | gone
deriving DecidableEq, Repr

/-- A notice entry (R179); its class is that of its kind. -/
structure Notice where
  id : CondId
  state : NoticeState
  pend : Bool
deriving DecidableEq, Repr

/-- The notice list (R177 to R183). -/
structure NoticeUnit where
  kept : Bool
  entries : List Notice
  present : List CondId
  saturated : Bool
deriving DecidableEq, Repr

/-- What the signaller-line transmitter is sending (R165): an INDICATION, or a NOTICE of an entry with the state it carries (R167). -/
inductive SigWhat where
  | indication
  | notice (id : CondId) (state : NoticeState)
deriving DecidableEq, Repr

/-- The frame in flight on the signaller line with its bytes and start. -/
structure SigFlight where
  what : SigWhat
  bytes : List Byte
  startUs : Time
deriving DecidableEq, Repr

/-- The signaller-line transmitter and its receive buffer (R165, R169). -/
structure SigUnit where
  started : Bool
  flight : Option SigFlight
  lastEnd : Option Time
  due : Option Time
  dueMark : Bool
  rx : List RxByte
deriving DecidableEq, Repr

/-- The ten event latches (R187). -/
structure Latches where
  lineADrop : Bool
  lineBDrop : Bool
  crcSeen : Bool
  collisionSeen : Bool
  txRetrySeen : Bool
  calAbandoned : Bool
  unorderedSeen : Bool
  lateArrivalSeen : Bool
  speedClamped : Bool
  slewLimited : Bool
deriving DecidableEq, Repr

/-- A filled first-fault record (R184); `live` lists the station numbers set in the LIVE mask. -/
structure FirstFault where
  time : Time
  restartCount : Byte
  cause : Option CondId
  before : Phase
  sections : List SectState
  live : List Nat
  condCount : Nat
deriving DecidableEq, Repr

/-! ### The maintainer port (chapter 11) -/

/-- The maintainer commands (R195 to R197); `unknown` stands for one whose name or argument is none of theirs. -/
inductive PortCmd where
  | showPeers
  | showSections
  | showDetection
  | showNotices
  | showFirstFault
  | readLatches
  | readMismatches
  | calibrate (dp : Nat)
  | resetSection (sec : Nat) (kind : ResetKind)
  | clearFirstFault
  | restart
  | unknown
deriving DecidableEq, Repr

/-- The reply codes (R195). -/
inductive ReplyCode where
  | done
  | refusedState
  | refusedKey
  | unknownItem
  | busy
deriving DecidableEq, Repr

/-- A line of READ MISMATCHES (R103). -/
structure MismatchLine where
  station : Nat
  phase : Bool
  sections : Bool
  health : Bool
  held : Bool
deriving DecidableEq, Repr

/-- What SHOW DETECTION gives of one head (R196): working threshold or none, filtered level, supply state, edge flags. -/
structure HeadLine where
  threshold : Option Nat
  covered : Bool
  supply : SupplyState
  coverSeen : Bool
  clearSeen : Bool
deriving DecidableEq, Repr

/-- What SHOW DETECTION gives of one own DP (R196): its two heads, state and causes, recogniser state, counts, epoch, last speed, unordered history,
calibration timer and due state. -/
structure DetectionLine where
  dp : Nat
  first : HeadLine
  second : HeadLine
  state : DpState
  supplyCause : Bool
  thresholdCause : Bool
  unorderedCause : Bool
  recog : RecogState
  inn : Half
  out : Half
  epoch : Byte
  lastSpeed : Nat
  history : List Time
  calStart : Option Time
  due : Bool
deriving DecidableEq, Repr

/-- The content of a reply whose code is DONE (R13, R196). -/
inductive Content where
  | empty
  | peers (join : JoinState) (entries : List Peer) (verdicts : List (Nat × Verdict))
  | sections (records : List Sect) (view : List ViewEntry) (key : Option Bool)
  | detection (dps : List DetectionLine)
  | notices (entries : List Notice) (presentSize : Nat) (saturated : Bool)
  | firstFault (record : Option FirstFault)
  | latches (l : Latches)
  | mismatches (entries : List MismatchLine)
  | sweep (nearer other : SweepResult)
deriving DecidableEq, Repr

/-- A reply of the maintainer port. -/
structure Reply where
  code : ReplyCode
  content : Content
deriving DecidableEq, Repr

/-- The BUSY reply (R195): none, waiting behind the reply in progress, or being sent. -/
inductive BusyReply where
  | none
  | waiting
  | sending
deriving DecidableEq, Repr

/-- The maintainer port (R195): the command in progress, its reply (none while CALIBRATE waits for its sweep), the BUSY reply, the bytes of a command
still arriving, each with its time. -/
structure PortUnit where
  cmd : Option PortCmd
  reply : Option Reply
  busy : BusyReply
  rx : List RxByte
deriving DecidableEq, Repr

/-- Station time (00): microsecond counter, millisecond count, microseconds into the running millisecond. -/
structure Clock where
  us : Time
  ms : Time
  frac : Nat
deriving DecidableEq, Repr

/-! ### The station -/

/-- The whole state of one station, with the queue of commands that wait. `changes` is the model's own count of the changes of published contents that a
single event may make and take back (R72, R176; log 10). -/
structure State where
  clock : Clock
  powered : Bool
  mem : List Host.Cell
  restartCount : Byte
  digest : Half
  cfg : Image
  dps : List DpUnit
  sections : List Sect
  view : List ViewEntry
  line : LineUnit
  join : JoinUnit
  peers : List Peer
  phase : PhaseUnit
  seq : SeqUnit
  lights : LightsUnit
  flash : FlashUnit
  barrier : BarrierUnit
  dci : DciUnit
  conds : List CondEntry
  changes : Nat
  notices : NoticeUnit
  sig : SigUnit
  latches : Latches
  firstFault : Option FirstFault
  port : PortUnit
  key : InputFilter
  freeCount : Nat
  pending : List Instr
deriving DecidableEq, Repr

/-- The faults that stop the machine: none. The part reports what goes wrong as a condition, a latch, a reply, a lockout or the phase FAILED, and
goes on, so no meaning ends in a fault. Safe. -/
inductive Fault where
deriving DecidableEq, Repr

/-- The refusals of the model. -/
inductive Refusal where
  /-- A command that has no meaning in the model yet; raised by `exec` alone. Safe: the model stops. -/
  | notModelled (mnemonic : String)
deriving DecidableEq, Repr

/-! ### Values after reset -/

/-- No role (an empty role set). -/
def Roles.empty : Roles := { detect := false, post := false, report := false }

/-- The defaults of the timing constants (R191). -/
def Timing.default : Timing :=
  { filterLength := 4, calInterval := 60, calMargin := 6, warningTime := 30000, maxDelay := 120000, transit := 50, minSweepAxles := 4,
    statusPeriod := 250, retryLimit := 4, silenceLimit := 1000, joinWindow := 5000, timeoutFactor := 4, tolerance := 3000, minOpen := 10000,
    maxClosed := 180, flashCycle := 1000, travelTimeout := 10 }

/-- A pair of limits before any image has been read (DESIGN CHOICE log 38). -/
def Limits.zero : Limits := { low := 0, high := 0 }

/-- The image before any has been read, and in blind lockout (R190, DESIGN CHOICE log 38): no station, no DP, every constant at its default. -/
def Image.blank : Image :=
  { crossing := 0, stations := [], tracks := 0, dps := [], dcis := [], own := 0, timing := Timing.default, headBand := Limits.zero,
    amberLit := Limits.zero, amberTest := Limits.zero, red1Lit := Limits.zero, red1Test := Limits.zero, red2Lit := Limits.zero,
    red2Test := Limits.zero, dciLit := Limits.zero, dciTest := Limits.zero, startRestoring := false, cmpPhase := false, cmpSections := false,
    cmpHealth := false, steps := [], closeHead := 0, openHead := 0, failedHead := 0 }

/-- A head after either reset (R2, R3, R5, R6). -/
def Head.reset : Head :=
  { threshold := none, covered := false, levelTaken := false, run := 0, runStart := 0, coverSeen := false, clearSeen := false, supply := .normal,
    bad := 0, good := 0 }

/-- The recogniser after either reset (R14). -/
def Recog.reset : Recog := { state := .idle, firstCover := 0, aged := false, delta := none, noSpeed := false }

/-- A line after either reset (R78). -/
def LineRec.reset : LineRec :=
  { health := .qualifying, history := [], lastValid := 0, qualifying := 0, carrier := false, blocked := false }

/-- The line controller after either reset (R71 to R73, R76, R78). -/
def LineUnit.reset : LineUnit :=
  { rxOn := false, a := LineRec.reset, b := LineRec.reset, quietSince := none, gapEnd := none, queue := [], nextOrd := 0, flight := none,
    seqStrike := 0, seqStatus := 0, seqJoin := 0, seqService := 0, filter := [], statusLeft := none, heldBack := false, accepted := [] }

/-- The join unit after either reset (R86, R93). -/
def JoinUnit.reset : JoinUnit :=
  { state := .loading, blind := false, declared := false, verdicts := [], windowStart := none, nextHail := 0, firstHailSent := false, lowerStart := none }

/-- The phase unit after either reset (R105, R137). -/
def PhaseUnit.reset : PhaseUnit :=
  { phase := .starting, closedEntry := none, releaseStart := none, releaseExpired := false, haltPending := false, heldByRelease := [],
    standing := [], deferred := none }

/-- The sequencer after either reset (R127). -/
def SeqUnit.reset : SeqUnit :=
  { state := .idle, list := none, step := none, stepStart := 0, waitStart := none, lowerReached := false, result := none }

/-- A lamp string after either reset (R149). -/
def LampString.reset : LampString := { out := false, failed := 0, good := 0 }

/-- An aspect after either reset (R149, R159). -/
def AspectRec.reset : AspectRec :=
  { driven := false, litStart := none, main := LampString.reset, second := LampString.reset, priorMain := LampString.reset,
    priorSecond := LampString.reset }

/-- The road lights after either reset (R148, R159). -/
def LightsUnit.reset : LightsUnit :=
  { amber := false, red := .off, a0 := AspectRec.reset, a1 := AspectRec.reset, a2 := AspectRec.reset, coldStart := none, pulse := none }

/-- The flash timebase after either reset (R143, R144). -/
def FlashUnit.reset : FlashUnit := { mode := .stopped, corr := none, second := false, leader := none }

/-- An input filter after either reset (R152, R193): its level waits for its first sample. -/
def InputFilter.reset : InputFilter := { level := none, run := 0 }

/-- The barrier after either reset (R151, R154 to R157); the time of the reset is 0 (R194). -/
def BarrierUnit.reset : BarrierUnit :=
  { command := .release, up := InputFilter.reset, down := InputFilter.reset, lowerOn := false, raiseOn := false, lowerStop := 0, raiseStop := 0,
    travelStart := none, stalled := false, contactFault := false, lowerSpent := false, bothSince := none, beforeBoth := .mid, state := .mid }

/-- The indicators after either reset (R161, R164). -/
def DciUnit.reset : DciUnit := { out0 := none, out1 := none, coldStart := none, pulse := none }

/-- The notice list after either reset (R177, R178). -/
def NoticeUnit.reset : NoticeUnit := { kept := false, entries := [], present := [], saturated := false }

/-- The transmitter after either reset (R165, R169). -/
def SigUnit.reset : SigUnit := { started := false, flight := none, lastEnd := none, due := none, dueMark := false, rx := [] }

/-- The latches all clear (R187). -/
def Latches.reset : Latches :=
  { lineADrop := false, lineBDrop := false, crcSeen := false, collisionSeen := false, txRetrySeen := false, calAbandoned := false,
    unorderedSeen := false, lateArrivalSeen := false, speedClamped := false, slewLimited := false }

/-- The maintainer port after either reset (R194, R195). -/
def PortUnit.reset : PortUnit := { cmd := none, reply := none, busy := .none, rx := [] }

/-- The counters after either reset (R194). -/
def Clock.reset : Clock := { us := 0, ms := 0, frac := 0 }

/-- The station right after a power-on reset, which still lasts until the supply is restored (R194, log 6), with an empty configuration memory
(log 5). -/
def State.reset : State :=
  { clock := Clock.reset, powered := false, mem := [], restartCount := 0, digest := 0, cfg := Image.blank, dps := [], sections := [], view := [],
    line := LineUnit.reset, join := JoinUnit.reset, peers := [], phase := PhaseUnit.reset, seq := SeqUnit.reset, lights := LightsUnit.reset,
    flash := FlashUnit.reset, barrier := BarrierUnit.reset, dci := DciUnit.reset, conds := [], changes := 0, notices := NoticeUnit.reset,
    sig := SigUnit.reset, latches := Latches.reset, firstFault := none, port := PortUnit.reset, key := InputFilter.reset, freeCount := 0, pending := [] }

end Sys2Proof.Machine
end

