-- ==== Sys2Proof/Machine/Formats.lean ====
section
/-! DEFINITION. The byte layouts of chapter 12: the CRC, the frames of the crossing line and of the signaller line, the configuration image and its
load check. -/

namespace Sys2Proof.Machine

/-! ### The CRC (R198) -/

/-- One data bit into the CRC register (R198). -/
def crcBit (r : Half) (bit : Bool) : Half :=
  if (r.getLsbD 15) != bit then (r <<< 1) ^^^ 4129#16 else r <<< 1

/-- One byte into the CRC register, most significant bit first (R198). -/
def crcByte (r : Half) (x : Byte) : Half :=
  [7, 6, 5, 4, 3, 2, 1, 0].foldl (fun r i => crcBit r (x.getLsbD i)) r

/-- The CRC-16 of a run of bytes (R198). -/
def crc16 (bytes : List Byte) : Half := bytes.foldl crcByte 65535#16

/-! ### Numbers of several bytes, most significant byte first (12, opening) -/

/-- The two bytes of a 16-bit number. -/
def halfBytes (w : Half) : List Byte := [w.extractLsb' 8 8, w.extractLsb' 0 8]

/-- A 16-bit number from its two bytes. -/
def halfOf (h l : Byte) : Half := h ++ l

/-- The two bytes of a number below 65536. -/
def nat2 (n : Nat) : List Byte := [BitVec.ofNat 8 (n / 256), BitVec.ofNat 8 n]

/-- The number of two bytes. -/
def natOf2 (h l : Byte) : Nat := h.toNat * 256 + l.toNat

/-- The three bytes of a number below 2^24. -/
def nat3 (n : Nat) : List Byte := [BitVec.ofNat 8 (n / 65536), BitVec.ofNat 8 (n / 256), BitVec.ofNat 8 n]

/-- The number of three bytes. -/
def natOf3 (a b c : Byte) : Nat := a.toNat * 65536 + b.toNat * 256 + c.toNat

/-- A bit of a packed byte as a number. -/
def bitNat (b : Bool) (weight : Nat) : Nat := if b then weight else 0

/-- Bit `i` of a byte. -/
def bitOf (x : Byte) (i : Nat) : Bool := x.getLsbD i

/-- The number in bits `i` to `i + n - 1` of a byte. -/
def bitsOf (x : Byte) (i n : Nat) : Nat := x.toNat / 2 ^ i % 2 ^ n

/-! ### Coded values (12, "Crossing line frames") -/

/-- The role set code. -/
def Roles.code (r : Roles) : Nat := bitNat r.detect 1 + bitNat r.post 2 + bitNat r.report 4

/-- The role set of its low three bits. -/
def Roles.ofBits (n : Nat) : Roles := { detect := n % 2 == 1, post := n / 2 % 2 == 1, report := n / 4 % 2 == 1 }

/-- The role set of a role byte: a value that names no role or a bit the table does not name is undefined (R84, R199; log 22). -/
def Roles.ofByte (x : Byte) : Option Roles := if x.toNat = 0 ∨ 7 < x.toNat then none else some (Roles.ofBits x.toNat)

/-- The phase code. -/
def Phase.code : Phase → Nat
  | .starting => 0
  | .opened => 1
  | .closing => 2
  | .closed => 3
  | .opening => 4
  | .failed => 5

/-- The phase of a code. -/
def Phase.ofCode : Nat → Option Phase
  | 0 => some .starting
  | 1 => some .opened
  | 2 => some .closing
  | 3 => some .closed
  | 4 => some .opening
  | 5 => some .failed
  | _ => none

/-- The DP state code of a report; LOST is published to nobody (R41). -/
def DpState.code : DpState → Nat
  | .working => 0
  | .calibrating => 1
  | .faulted => 2
  | .lost => 3

/-- The DP state of a code. -/
def DpState.ofCode : Nat → Option DpState
  | 0 => some .working
  | 1 => some .calibrating
  | 2 => some .faulted
  | _ => none

/-- The section state code. -/
def SectState.code : SectState → Nat
  | .clear => 0
  | .occupied => 1
  | .disturbed => 2
  | .unknown => 3
  | .restoring => 4

/-- The section state of a code. -/
def SectState.ofCode : Nat → Option SectState
  | 0 => some .clear
  | 1 => some .occupied
  | 2 => some .disturbed
  | 3 => some .unknown
  | 4 => some .restoring
  | _ => none

/-- The barrier state code. -/
def BarrierState.code : BarrierState → Nat
  | .up => 0
  | .down => 1
  | .lowering => 2
  | .raising => 3
  | .mid => 4
  | .stalled => 5
  | .contactFault => 6

/-- The barrier state of a code. -/
def BarrierState.ofCode : Nat → Option BarrierState
  | 0 => some .up
  | 1 => some .down
  | 2 => some .lowering
  | 3 => some .raising
  | 4 => some .mid
  | 5 => some .stalled
  | 6 => some .contactFault
  | _ => none

/-- The aspect state code. -/
def AspectState.code : AspectState → Nat
  | .ok => 0
  | .degraded => 1
  | .failed => 2

/-- The aspect state of a code. -/
def AspectState.ofCode : Nat → Option AspectState
  | 0 => some .ok
  | 1 => some .degraded
  | 2 => some .failed
  | _ => none

/-- The line health code. -/
def Health.code : Health → Nat
  | .good => 0
  | .qualifying => 1
  | .failed => 2

/-- The line health of a code. -/
def Health.ofCode : Nat → Option Health
  | 0 => some .good
  | 1 => some .qualifying
  | 2 => some .failed
  | _ => none

/-- The join state code of a JOIN frame; LOADING is never sent (R85). -/
def JoinState.code : JoinState → Nat
  | .calibrating => 0
  | .hailing => 1
  | .joined => 2
  | .lockedOut => 3
  | .loading => 4

/-- The join state of a code. -/
def JoinState.ofCode : Nat → Option JoinState
  | 0 => some .calibrating
  | 1 => some .hailing
  | 2 => some .joined
  | 3 => some .lockedOut
  | _ => none

/-- The number of a condition kind (R172). -/
def CondKind.num : CondKind → Nat
  | .configInvalid => 0
  | .layoutMismatch => 1
  | .peerLost => 2
  | .sectionUnknown => 3
  | .sectionDisturbed => 4
  | .dpFaulted => 5
  | .barrierStalled => 6
  | .barrierContacts => 7
  | .aspectFailed => 8
  | .sequenceError => 9
  | .lateArrival => 10
  | .peerDisagrees => 11
  | .txBlocked => 12
  | .dciFailed => 13
  | .aspectDegraded => 14
  | .lineFailed => 15
  | .longClosure => 16
  | .calibrationFailed => 17
  | .speedImplausible => 18
  | .configClamped => 19

/-- The condition kind of a number (R172). -/
def CondKind.ofNum : Nat → Option CondKind
  | 0 => some .configInvalid
  | 1 => some .layoutMismatch
  | 2 => some .peerLost
  | 3 => some .sectionUnknown
  | 4 => some .sectionDisturbed
  | 5 => some .dpFaulted
  | 6 => some .barrierStalled
  | 7 => some .barrierContacts
  | 8 => some .aspectFailed
  | 9 => some .sequenceError
  | 10 => some .lateArrival
  | 11 => some .peerDisagrees
  | 12 => some .txBlocked
  | 13 => some .dciFailed
  | 14 => some .aspectDegraded
  | 15 => some .lineFailed
  | 16 => some .longClosure
  | 17 => some .calibrationFailed
  | 18 => some .speedImplausible
  | 19 => some .configClamped
  | _ => none

/-- The subject byte of a condition: subject number in bits 0 to 3, item in bits 4 to 6. -/
def CondId.subjectByte (c : CondId) : Byte := BitVec.ofNat 8 (c.subject.val + 16 * c.item.val)

/-- The two bytes of a condition. -/
def CondId.bytes (c : CondId) : List Byte := [BitVec.ofNat 8 c.kind.num, c.subjectByte]

/-- The condition of two bytes. A subject number or an item outside the range that R172 gives its kind is taken as it stands (log 68). -/
def CondId.ofBytes (k s : Byte) : Option CondId :=
  (CondKind.ofNum k.toNat).map fun kind => { kind := kind, subject := Fin.ofNat 16 (bitsOf s 0 4), item := Fin.ofNat 8 (bitsOf s 4 3) }

/-! ### Frames of the crossing line -/

/-- The kind of a body. -/
def Body.kind : Body → FrameKind
  | .strike _ => .strike
  | .status _ => .status
  | .join _ => .join
  | .service _ => .service

/-- The kind code of the envelope. -/
def FrameKind.code : FrameKind → Nat
  | .strike => 1
  | .status => 2
  | .join => 3
  | .service => 4

/-- The 11 bytes of a STRIKE body; 16,777,215 stands for no remaining delay. -/
def StrikeBody.bytes (b : StrikeBody) : List Byte :=
  [BitVec.ofNat 8 b.dp] ++ halfBytes b.inn ++ halfBytes b.out ++ [b.epoch] ++ nat2 b.speed ++ nat3 (b.delay.getD 16777215)

/-- The seven bytes of a DP report. -/
def DpReport.bytes (r : DpReport) : List Byte :=
  [BitVec.ofNat 8 (r.dp % 8 + 16 * r.state.code + bitNat r.headsClear 128)] ++ halfBytes r.inn ++ halfBytes r.out ++ nat2 r.speed

/-- The four bytes of a post report. -/
def PostReport.bytes (p : PostReport) : List Byte :=
  [BitVec.ofNat 8 p.barrier.code, BitVec.ofNat 8 (p.amber.code + 4 * p.red1.code + 16 * p.red2.code)] ++ nat2 p.flash

/-- The section summary: two sections to a byte, the lower id in bits 0 to 3. -/
def summaryBytes : List SectState → List Byte
  | [] => []
  | [x] => [BitVec.ofNat 8 x.code]
  | x :: y :: rest => BitVec.ofNat 8 (x.code + 16 * y.code) :: summaryBytes rest

/-- The shape byte of a STATUS. -/
def StatusBody.shape (b : StatusBody) : Nat :=
  b.dps.length + bitNat b.post.isSome 4 + bitNat (b.sections.length == 6) 8 + 16 * b.conds.length

/-- The bytes of a STATUS body. -/
def StatusBody.bytes (b : StatusBody) : List Byte :=
  [BitVec.ofNat 8 b.roles.code, b.epoch, BitVec.ofNat 8 b.phase.code] ++ halfBytes b.digest
    ++ [BitVec.ofNat 8 (b.healthA.code + 4 * b.healthB.code), BitVec.ofNat 8 b.shape, BitVec.ofNat 8 b.condCount]
    ++ b.dps.flatMap DpReport.bytes ++ (b.post.map PostReport.bytes).getD [] ++ summaryBytes b.sections ++ b.conds.flatMap CondId.bytes

/-- The bytes of a JOIN body: sub-kind 1 HAIL or 2 ANSWER. -/
def JoinBody.bytes (b : JoinBody) : List Byte :=
  match b.answerTo with
  | none => [1#8, BitVec.ofNat 8 b.roles.code] ++ halfBytes b.digest ++ [BitVec.ofNat 8 b.join.code]
  | some n => [2#8, BitVec.ofNat 8 b.roles.code] ++ halfBytes b.digest ++ [BitVec.ofNat 8 b.join.code, BitVec.ofNat 8 n]

/-- The reset kind code. -/
def resetKindCode : ResetKind → Nat
  | .sweep => 1
  | .direct => 2

/-- The four bytes of a SERVICE body. -/
def OrderBody.bytes (b : OrderBody) : List Byte :=
  [1#8, BitVec.ofNat 8 b.sec, BitVec.ofNat 8 (resetKindCode b.kind), BitVec.ofNat 8 (bitNat b.key 1)]

/-- The bytes of a body. -/
def Body.bytes : Body → List Byte
  | .strike b => b.bytes
  | .status b => b.bytes
  | .join b => b.bytes
  | .service b => b.bytes

/-- Bytes followed by their CRC. -/
def withCrc (bytes : List Byte) : List Byte := bytes ++ halfBytes (crc16 bytes)

/-- The bytes of a frame: envelope, body, CRC. -/
def Frame.bytes (f : Frame) : List Byte :=
  withCrc ([BitVec.ofNat 8 (f.body.bytes.length + 8)] ++ halfBytes f.crossing
    ++ [BitVec.ofNat 8 f.source, BitVec.ofNat 8 f.body.kind.code, f.seq] ++ f.body.bytes)

/-- A STRIKE body read from its bytes, each number in its range (R83, R199). -/
def StrikeBody.read : List Byte → Option StrikeBody
  | [d, i1, i0, o1, o0, e, v1, v0, r2, r1, r0] =>
    let delay := natOf3 r2 r1 r0
    if 7 < d.toNat ∨ 5000 < natOf2 v1 v0 ∨ (120000 < delay ∧ delay ≠ 16777215) then none
    else some { dp := d.toNat, inn := halfOf i1 i0, out := halfOf o1 o0, epoch := e, speed := natOf2 v1 v0,
                delay := if delay = 16777215 then none else some delay }
  | _ => none

/-- `n` DP reports from the front of the bytes; a last speed above 5,000 drops no frame, since R84 gives the field no range (log 64). -/
def readReports : Nat → List Byte → Option (List DpReport × List Byte)
  | 0, l => some ([], l)
  | n + 1, h :: i1 :: i0 :: o1 :: o0 :: v1 :: v0 :: rest =>
    match DpState.ofCode (bitsOf h 4 2), readReports n rest with
    | some st, some (rs, rest') =>
      some ({ dp := bitsOf h 0 3, state := st, headsClear := bitOf h 7, inn := halfOf i1 i0, out := halfOf o1 o0, speed := natOf2 v1 v0 } :: rs,
        rest')
    | _, _ => none
  | _ + 1, _ => none

/-- The post report from the front of the bytes, where present; its flash offset is judged against 0 to 1,199 (R199). -/
def readPost : Bool → List Byte → Option (Option PostReport × List Byte)
  | false, l => some (none, l)
  | true, b :: a :: f1 :: f0 :: rest =>
    match BarrierState.ofCode b.toNat, AspectState.ofCode (bitsOf a 0 2), AspectState.ofCode (bitsOf a 2 2), AspectState.ofCode (bitsOf a 4 2) with
    | some bs, some x, some y, some z =>
      if 1199 < natOf2 f1 f0 then none
      else some (some { barrier := bs, amber := x, red1 := y, red2 := z, flash := natOf2 f1 f0 }, rest)
    | _, _, _, _ => none
  | true, _ => none

/-- The section summary from the front of the bytes: three sections in two bytes or six in three. -/
def readSummary : Bool → List Byte → Option (List SectState × List Byte)
  | false, x :: y :: rest =>
    match SectState.ofCode (bitsOf x 0 4), SectState.ofCode (bitsOf x 4 4), SectState.ofCode (bitsOf y 0 4) with
    | some a, some b, some c => some ([a, b, c], rest)
    | _, _, _ => none
  | true, x :: y :: z :: rest =>
    match SectState.ofCode (bitsOf x 0 4), SectState.ofCode (bitsOf x 4 4), SectState.ofCode (bitsOf y 0 4), SectState.ofCode (bitsOf y 4 4),
      SectState.ofCode (bitsOf z 0 4), SectState.ofCode (bitsOf z 4 4) with
    | some a, some b, some c, some d, some e, some f => some ([a, b, c, d, e, f], rest)
    | _, _, _, _, _, _ => none
  | _, _ => none

/-- `n` condition entries, and nothing after them. -/
def readConds : Nat → List Byte → Option (List CondId)
  | 0, [] => some []
  | n + 1, k :: s :: rest =>
    match CondId.ofBytes k s, readConds n rest with
    | some c, some cs => some (c :: cs)
    | _, _ => none
  | _, _ => none

/-- A STATUS body read from its bytes (R84, R199): its length is the one its shape byte gives. -/
def StatusBody.read : List Byte → Option StatusBody
  | r :: e :: p :: d1 :: d0 :: h :: sh :: cc :: rest =>
    if bitsOf sh 0 2 = 3 ∨ 8 < bitsOf sh 4 4 ∨ 31 < cc.toNat then none
    else
      match Roles.ofByte r, Phase.ofCode p.toNat, Health.ofCode (bitsOf h 0 2), Health.ofCode (bitsOf h 2 2), readReports (bitsOf sh 0 2) rest with
      | some roles, some phase, some ha, some hb, some (dps, rest1) =>
        match readPost (bitOf sh 2) rest1 with
        | some (post, rest2) =>
          match readSummary (bitOf sh 3) rest2 with
          | some (secs, rest3) =>
            match readConds (bitsOf sh 4 4) rest3 with
            | some conds =>
              some { roles := roles, epoch := e, phase := phase, digest := halfOf d1 d0, healthA := ha, healthB := hb, dps := dps, post := post,
                     sections := secs, conds := conds, condCount := cc.toNat }
            | none => none
          | none => none
        | none => none
      | _, _, _, _, _ => none
  | _ => none

/-- A JOIN body read from its bytes (R85, R199). -/
def JoinBody.read : List Byte → Option JoinBody
  | [k, r, d1, d0, j] =>
    match Roles.ofByte r, JoinState.ofCode j.toNat with
    | some roles, some join => if k = 1#8 then some { roles := roles, digest := halfOf d1 d0, join := join, answerTo := none } else none
    | _, _ => none
  | [k, r, d1, d0, j, n] =>
    match Roles.ofByte r, JoinState.ofCode j.toNat with
    | some roles, some join =>
      if k = 2#8 ∧ n.toNat ≤ 15 then some { roles := roles, digest := halfOf d1 d0, join := join, answerTo := some n.toNat } else none
    | _, _ => none
  | _ => none

/-- A SERVICE body read from its bytes (R85, R199). -/
def OrderBody.read : List Byte → Option OrderBody
  | [k, s, rk, key] =>
    if k = 1#8 ∧ s.toNat ≤ 5 ∧ (rk = 1#8 ∨ rk = 2#8) ∧ key.toNat ≤ 1 then
      some { sec := s.toNat, kind := if rk = 1#8 then .sweep else .direct, key := key == 1#8 }
    else none
  | _ => none

/-- A body of a kind code read from its bytes (R199). -/
def Body.read (kind : Byte) (l : List Byte) : Option Body :=
  if kind = 1#8 then (StrikeBody.read l).map .strike
  else if kind = 2#8 then (StatusBody.read l).map .status
  else if kind = 3#8 then (JoinBody.read l).map .join
  else if kind = 4#8 then (OrderBody.read l).map .service
  else none

/-- Framing (R74): at most 64 bytes, and a length field that agrees with the length received. -/
def framed (bytes : List Byte) : Bool := bytes.length ≤ 64 && bytes.head? == some (BitVec.ofNat 8 bytes.length)

/-- The last two bytes are the CRC of those before them (R198), from the length byte on. -/
def crcChecks (bytes : List Byte) : Bool :=
  3 ≤ bytes.length && bytes.drop (bytes.length - 2) == halfBytes (crc16 (bytes.take (bytes.length - 2)))

/-- How a received frame is judged, in the order of R74. -/
inductive RxJudgement where
  | framingFailure
  | crcFailure
  | foreign
  | valid
deriving DecidableEq, Repr

/-- The crossing identity of the envelope. -/
def crossingOf : List Byte → Half
  | _ :: c1 :: c0 :: _ => halfOf c1 c0
  | _ => 0

/-- The judgement of R74; a run of good CRC that ends before its crossing identity does not carry this crossing's (log 22). -/
def judgeFrame (crossing : Half) (bytes : List Byte) : RxJudgement :=
  if !framed bytes then .framingFailure
  else if !crcChecks bytes then .crcFailure
  else if bytes.length < 5 ∨ crossingOf bytes ≠ crossing then .foreign
  else .valid

/-- The fields of a frame read from its bytes, its envelope and coded fields as R75 and R199 ask: source 0 to 15, kind 1 to 4, a body of that kind. -/
def readFields : List Byte → Option Frame
  | _ :: c1 :: c0 :: src :: kind :: seq :: rest =>
    match Body.read kind (rest.take (rest.length - 2)) with
    | some body => if src.toNat ≤ 15 then some { crossing := halfOf c1 c0, source := src.toNat, seq := seq, body := body } else none
    | none => none
  | _ => none

/-- A frame read from its bytes (R75, R199): its fields are readable, and the bits that no field names, an unused last half-byte among them, are 0
(log 22). -/
def readFrame (bytes : List Byte) : Option Frame := (readFields bytes).filter fun f => f.bytes = bytes

/-- The values that the fields of a DP report may hold (R84); its last speed is any 16-bit number (log 64). -/
def DpReport.wf (r : DpReport) : Bool := r.dp < 8 && r.state != .lost && r.speed < 65536

/-- The values that the fields of a body may hold (R83 to R85). -/
def Body.wf : Body → Bool
  | .strike b => b.dp < 8 && b.speed ≤ 5000 && b.delay.all (· ≤ 120000)
  | .status b =>
    b.roles != Roles.empty && b.dps.length ≤ 2 && b.dps.all DpReport.wf && b.post.all (fun p => p.flash ≤ 1199)
      && (b.sections.length == 3 || b.sections.length == 6) && b.conds.length ≤ 8 && b.condCount ≤ 31
  | .join b => b.roles != Roles.empty && b.join != .loading && b.answerTo.all (· ≤ 15)
  | .service b => b.sec ≤ 5

/-- The values that the fields of a frame may hold (R82). -/
def Frame.wf (f : Frame) : Bool := f.source ≤ 15 && f.body.wf

/-! ### Frames of the signaller line -/

/-- A signaller line frame: start byte 165, length, body, and the CRC of length and body. -/
def sigFrame (body : List Byte) : List Byte := 165#8 :: withCrc (BitVec.ofNat 8 body.length :: body)

/-- The condition class of a kind: ALARM 0, URGENT 1, MINOR 2, INFO 3 (R172). -/
def CondKind.cls : CondKind → Nat
  | .configInvalid | .layoutMismatch | .peerLost | .sectionUnknown | .sectionDisturbed => 0
  | .dpFaulted | .barrierStalled | .barrierContacts | .aspectFailed | .sequenceError => 0
  | .lateArrival | .peerDisagrees | .txBlocked | .dciFailed => 1
  | .aspectDegraded | .lineFailed | .longClosure | .calibrationFailed => 2
  | .speedImplausible | .configClamped => 3

/-- The code of a notice state. -/
def NoticeState.code : NoticeState → Nat
  | .raised => 0
  | .acked => 1
  | .cleared => 2
  | .gone => 3

/-- The bytes of a NOTICE (code 130). -/
def noticeBytes (id : CondId) (st : NoticeState) : List Byte :=
  sigFrame [130#8, BitVec.ofNat 8 id.kind.num, id.subjectByte, BitVec.ofNat 8 id.kind.cls, BitVec.ofNat 8 st.code]

/-- The three bits of one output in the DCI byte: 0 UNASSIGNED, 1 DARK or 2 PROVEN, and the string OUT bit. -/
def dciCode : Option DciOut → Nat
  | none => 0
  | some o => (if o.proven then 2 else 1) + bitNat o.lamp.out 4

/-- The fields of an INDICATION (R166); a class is none where there is no such entry. -/
structure IndicationFields where
  crossing : Half
  phase : Phase
  dci0 : Option DciOut
  dci1 : Option DciOut
  unacked : Option Nat
  highest : Option Nat
  count : Nat
  saturated : Bool
deriving DecidableEq, Repr

/-- The bytes of an INDICATION (code 129). -/
def IndicationFields.bytes (f : IndicationFields) : List Byte :=
  sigFrame ([129#8] ++ halfBytes f.crossing ++ [BitVec.ofNat 8 f.phase.code, BitVec.ofNat 8 (dciCode f.dci0 + 16 * dciCode f.dci1),
    BitVec.ofNat 8 (f.unacked.getD 255), BitVec.ofNat 8 (f.highest.getD 255), BitVec.ofNat 8 f.count, BitVec.ofNat 8 (bitNat f.saturated 1)])

/-- What the inward bytes come to from the first start byte on (R169, R200): no whole frame yet, a frame broken off by a silence, an ACK, a QUERY, or a
frame that is malformed for another cause. -/
inductive InwardOutcome where
  | incomplete
  | timeout
  | ack (cls : Nat)
  | query
  | malformed
deriving DecidableEq, Repr

/-- A complete inward frame from its length byte on: its CRC checks, its code and length agree, the class of an ACK is 0 to 3 (R169, R200). -/
def judgeInward (len : Byte) (rest : List Byte) : InwardOutcome :=
  if rest.drop len.toNat ≠ halfBytes (crc16 (len :: rest.take len.toNat)) then .malformed
  else if len = 2#8 then
    match rest with
    | code :: cls :: _ => if code = 1#8 ∧ cls.toNat ≤ 3 then .ack cls.toNat else .malformed
    | _ => .malformed
  else
    match rest with
    | code :: _ => if code = 2#8 then .query else .malformed
    | _ => .malformed

/-- The bytes after a start byte, with how many of them the frame takes up: a length other than 1 or 2 is malformed at the length byte, every other fault
is found at the frame's last byte (R169; log 57). -/
def readInwardBody : List Byte → InwardOutcome × Nat
  | [] => (.incomplete, 0)
  | len :: rest =>
    if len ≠ 1#8 ∧ len ≠ 2#8 then (.malformed, 1)
    else if rest.length < len.toNat + 2 then (.incomplete, 0)
    else (judgeInward len (rest.take (len.toNat + 2)), len.toNat + 3)

/-- The bytes from the first start byte on; every byte outside a frame before it is discarded (R169). -/
def fromStart : List RxByte → List RxByte
  | [] => []
  | x :: rest => if x.byte = 165#8 then x :: rest else fromStart rest

/-- More than 20 ms have passed between two times (R169). -/
def tooLate (t now : Time) : Bool := 20000 < (now - t).toNat

/-- The bytes that follow a byte of a given time, split before the first that comes more than 20 ms after the one before it (R169). -/
def splitLate (t : Time) : List RxByte → List RxByte × List RxByte
  | [] => ([], [])
  | x :: rest => if tooLate t x.time then ([], x :: rest) else let r := splitLate x.time rest; (x :: r.1, r.2)

/-- A run of bytes none of which comes more than 20 ms after the one before it (R169). -/
def unbroken : List RxByte → Bool
  | a :: b :: rest => !tooLate a.time b.time && unbroken (b :: rest)
  | _ => true

/-- The outcome of the bytes received so far, at a time, and the bytes left over (R169): those after the frame, or after the byte at which it was found
malformed; from the late byte on where a silence broke it off; the whole frame where it may still go on. -/
def readInward (now : Time) (bytes : List RxByte) : InwardOutcome × List RxByte :=
  match fromStart bytes with
  | [] => (.incomplete, [])
  | x :: rest =>
    let p := splitLate x.time rest
    let r := readInwardBody (p.1.map (·.byte))
    match r.1, p.2 with
    | .incomplete, [] => if tooLate ((p.1.getLast?.map (·.time)).getD x.time) now then (.timeout, []) else (.incomplete, x :: rest)
    | .incomplete, late => (.timeout, late)
    | o, _ => (o, rest.drop r.2)

/-! ### The configuration image (12, "The configuration image") -/

/-- What an address of the configuration memory that nothing has been written to reads as (DESIGN CHOICE log 5). -/
def Memory.blankByte : Byte := 0#8

/-- The byte at an address of the configuration memory. -/
def Memory.read (m : List Host.Cell) (a : Nat) : Byte :=
  match m with
  | [] => Memory.blankByte
  | (k, v) :: rest => if a = k then v else Memory.read rest a

/-- The memory with a byte written, in canonical form: addresses rising, no cell equal to what an unlisted address reads as. -/
def Memory.write (m : List Host.Cell) (a : Nat) (v : Byte) : List Host.Cell :=
  match m with
  | [] => if v = Memory.blankByte then [] else [(a, v)]
  | (k, w) :: rest =>
    if a < k then (if v = Memory.blankByte then (k, w) :: rest else (a, v) :: (k, w) :: rest)
    else if a = k then (if v = Memory.blankByte then rest else (a, v) :: rest)
    else (k, w) :: Memory.write rest a v

/-- Whether a memory is in canonical form from a lowest address on. -/
def Memory.wfFrom (lowest : Nat) : List Host.Cell → Bool
  | [] => true
  | (k, v) :: rest => lowest ≤ k && v != Memory.blankByte && Memory.wfFrom (k + 1) rest

/-- Whether a memory is in canonical form. -/
def Memory.wf (m : List Host.Cell) : Bool := Memory.wfFrom 0 m

/-- `n` bytes from an address on. -/
def Memory.readRun (m : List Host.Cell) (a : Nat) : Nat → List Byte
  | 0 => []
  | n + 1 => Memory.read m a :: Memory.readRun m (a + 1) n

/-- The image as read, before any check: the fields in stored order (12). -/
structure RawImage where
  bytes : List Byte
  layoutLength : Nat
  crossing : Half
  stations : List Byte
  tracks : Nat
  dps : List (List Byte)
  dcis : List (List Byte)
  own : Nat
  consts : List (List Byte)
  limits : List (List Byte)
  flags : Byte
  heads : List Byte
  steps : List (List Byte)
deriving DecidableEq, Repr

/-- The first `n` bytes and the rest, where there are that many. -/
def takeBytes (n : Nat) (l : List Byte) : Option (List Byte × List Byte) :=
  if n ≤ l.length then some (l.take n, l.drop n) else none

/-- `n` records of `k` bytes from the front of the bytes. -/
def takeRecords (k : Nat) : Nat → List Byte → Option (List (List Byte) × List Byte)
  | 0, l => some ([], l)
  | n + 1, l =>
    match takeBytes k l with
    | some (x, rest) => (takeRecords k n rest).map fun p => (x :: p.1, p.2)
    | none => none

/-- The fields of an image after its length; none where the bytes run out before the fields or outlast them (R190: the image length disagrees with the
fields read). The last two bytes are the image CRC. -/
def readImageFields (bytes : List Byte) : Option RawImage := do
  let (_, l) ← takeBytes 2 bytes
  let (c, l) ← takeBytes 2 l
  let (ns, l) ← takeBytes 1 l
  let nSt := (ns.headD 0).toNat
  let (sts, l) ← takeBytes nSt l
  let (nt, l) ← takeBytes 1 l
  let tracks := (nt.headD 0).toNat
  let (dps, l) ← takeRecords 5 (4 * tracks) l
  let (nd, l) ← takeBytes 1 l
  let nDci := (nd.headD 0).toNat
  let (dcis, l) ← takeRecords 2 nDci l
  let (own, l) ← takeBytes 1 l
  let (consts, l) ← takeRecords 3 17 l
  let (limits, l) ← takeRecords 4 9 l
  let (flags, l) ← takeBytes 1 l
  let (nStep, l) ← takeBytes 1 l
  let (heads, l) ← takeBytes 3 l
  let (steps, l) ← takeRecords 7 (nStep.headD 0).toNat l
  if l.length = 2 then
    some { bytes := bytes, layoutLength := 2 + 1 + nSt + 1 + 20 * tracks + 1 + 2 * nDci, crossing := halfOf (c.headD 0) (c.getD 1 0),
           stations := sts, tracks := tracks, dps := dps, dcis := dcis, own := (own.headD 0).toNat, consts := consts, limits := limits,
           flags := flags.headD 0, heads := heads, steps := steps }
  else none

/-- The image in the memory from address 1 on, by its own length field (12); none where the length disagrees or the image CRC does not check
(R190, group image). -/
def readImage (m : List Host.Cell) : Option RawImage :=
  let n := natOf2 (Memory.read m 1) (Memory.read m 2)
  let bytes := Memory.readRun m 1 n
  if n < 2 ∨ bytes.drop (n - 2) ≠ halfBytes (crc16 (bytes.take (n - 2))) then none else readImageFields bytes

/-- The layout digest: the CRC over the layout part in its stored order (R189, R198). -/
def RawImage.digest (r : RawImage) : Half := crc16 ((r.bytes.drop 2).take r.layoutLength)

/-- A byte of a record, 0 beyond its end. -/
def recByte (l : List Byte) (i : Nat) : Byte := l.getD i 0

/-- A two-byte number of a record. -/
def rec2 (l : List Byte) (i : Nat) : Nat := natOf2 (recByte l i) (recByte l (i + 1))

/-- A three-byte number of a record. -/
def rec3 (l : List Byte) (i : Nat) : Nat := natOf3 (recByte l i) (recByte l (i + 1)) (recByte l (i + 2))

/-- A station list entry. -/
def readStation (x : Byte) : StationEntry :=
  { number := bitsOf x 0 4, roles := Roles.ofBits (bitsOf x 4 3), signaller := bitOf x 7 }

/-- A DP table entry; bits 6 and 7 of its first byte, which the table does not name, are ignored (log 63). -/
def readDp (l : List Byte) : DpEntry :=
  { owner := bitsOf (recByte l 0) 0 4, slot := if bitOf (recByte l 0) 4 then 1 else 0, nearSecond := bitOf (recByte l 0) 5,
    distance := rec2 l 1, spacing := rec2 l 3 }

/-- A DCI assignment; the bits that the table does not name are ignored (log 63). -/
def readDci (l : List Byte) : DciEntry :=
  { station := bitsOf (recByte l 0) 0 4, out := if bitOf (recByte l 0) 4 then 1 else 0, endB := bitOf (recByte l 1) 0,
    track0 := bitOf (recByte l 1) 1, track1 := bitOf (recByte l 1) 2 }

/-- A pair of current limits, low then high. -/
def readLimits (l : List Byte) : Limits := { low := rec2 l 0, high := rec2 l 2 }

/-- The range and default of each timing constant, in the order of the table of R191. -/
def timingRanges : List (Nat × Nat × Nat) :=
  [(2, 15, 4), (0, 240, 60), (2, 12, 6), (20000, 60000, 30000), (0, 120000, 120000), (0, 500, 50), (2, 16, 4), (100, 500, 250), (0, 15, 4),
   (200, 5000, 1000), (2000, 10000, 5000), (3, 8, 4), (1000, 10000, 3000), (0, 30000, 10000), (60, 600, 180), (800, 1200, 1000), (3, 20, 10)]

/-- A value clamped to a range. -/
def clampTo (low high x : Nat) : Nat := if x < low then low else if high < x then high else x

/-- A timing constant settled: the default where it is marked default, else clamped to its range (R191). -/
def settleConst (range : Nat × Nat × Nat) (stored : Nat) : Nat :=
  if stored = 16777215 then range.2.2 else clampTo range.1 range.2.1 stored

/-- Whether settling a timing constant clamps it. -/
def constClamped (range : Nat × Nat × Nat) (stored : Nat) : Bool :=
  stored != 16777215 && (stored < range.1 || range.2.1 < stored)

/-- The timing constants of a list of seventeen values. -/
def timingOf (l : List Nat) : Timing :=
  { filterLength := l.getD 0 0, calInterval := l.getD 1 0, calMargin := l.getD 2 0, warningTime := l.getD 3 0, maxDelay := l.getD 4 0,
    transit := l.getD 5 0, minSweepAxles := l.getD 6 0, statusPeriod := l.getD 7 0, retryLimit := l.getD 8 0, silenceLimit := l.getD 9 0,
    joinWindow := l.getD 10 0, timeoutFactor := l.getD 11 0, tolerance := l.getD 12 0, minOpen := l.getD 13 0, maxClosed := l.getD 14 0,
    flashCycle := l.getD 15 0, travelTimeout := l.getD 16 0 }

/-- The red field of its two bits, none where the table does not define the code. -/
def RedField.ofCode : Nat → Option RedField
  | 0 => some .off
  | 1 => some .alternate
  | 2 => some .bothSteady
  | _ => none

/-- The barrier field of its two bits. -/
def BarrierField.ofCode : Nat → BarrierField
  | 1 => .lower
  | 2 => .raise
  | 3 => .release
  | _ => .none

/-- The wait field of a byte, none where the table does not define the code. -/
def WaitFor.ofCode : Nat → Option WaitFor
  | 0 => some .none
  | 1 => some .ownDown
  | 2 => some .ownUp
  | 3 => some .allDown
  | 4 => some .allUp
  | _ => none

/-- A time rounded down to a whole 100 ms (R126). -/
def roundDown100 (x : Nat) : Nat := x / 100 * 100

/-- A step record settled: dwell and wait limit clamped to their ranges and rounded down to whole 100 ms (R126, R191). -/
def readStep (l : List Byte) : StepRec :=
  { amber := bitOf (recByte l 0) 0, red := (RedField.ofCode (bitsOf (recByte l 0) 1 2)).getD .off, barrier := .ofCode (bitsOf (recByte l 0) 4 2),
    dwell := roundDown100 (clampTo 0 30000 (rec2 l 2)), waitFor := (WaitFor.ofCode (recByte l 1).toNat).getD .none,
    waitLimit := if rec2 l 4 = 0 then none else some (roundDown100 (clampTo 1000 30000 (rec2 l 4))),
    next := if recByte l 6 = 255#8 then none else some (recByte l 6).toNat }

/-- Whether settling a step record clamps one of its times. -/
def stepClamped (l : List Byte) : Bool := 30000 < rec2 l 2 || (rec2 l 4 != 0 && (rec2 l 4 < 1000 || 30000 < rec2 l 4))

/-- Whether a step record holds a code that the table does not define (R190); a set bit 3, 6 or 7 of its pattern byte, which the table does not name, is no
code (log 63). -/
def stepUndefined (l : List Byte) : Bool :=
  (RedField.ofCode (bitsOf (recByte l 0) 1 2)).isNone || (WaitFor.ofCode (recByte l 1).toNat).isNone

/-- The image settled (R191, R192): every check passed, or taken as read in declared lockout (R190). Bits 4 to 7 of the flags byte are ignored (log 63). -/
def RawImage.settle (r : RawImage) : Image :=
  let lim := fun i => readLimits (r.limits.getD i [])
  { crossing := r.crossing, stations := r.stations.map readStation, tracks := min r.tracks 2, dps := (r.dps.map readDp).take 8,
    dcis := r.dcis.map readDci, own := r.own, timing := timingOf ((timingRanges.zip r.consts).map fun p => settleConst p.1 (rec3 p.2 0)),
    headBand := lim 0, amberLit := lim 1, amberTest := lim 2, red1Lit := lim 3, red1Test := lim 4, red2Lit := lim 5, red2Test := lim 6,
    dciLit := lim 7, dciTest := lim 8, startRestoring := bitOf r.flags 0, cmpPhase := bitOf r.flags 1, cmpSections := bitOf r.flags 2,
    cmpHealth := bitOf r.flags 3, steps := r.steps.map readStep, closeHead := (recByte r.heads 0).toNat, openHead := (recByte r.heads 1).toNat,
    failedHead := (recByte r.heads 2).toNat }

/-- Whether any value of the image is clamped (R191). -/
def RawImage.clamped (r : RawImage) : Bool :=
  (timingRanges.zip r.consts).any (fun p => constClamped p.1 (rec3 p.2 0)) || r.steps.any stepClamped

/-- The roles that a station number carries in the station list; of two entries with one number, an error that leads to declared lockout (R190), the first
gives them (log 23). -/
def rolesOf (l : List StationEntry) (n : Nat) : Roles :=
  match l.find? (fun e => e.number == n) with
  | some e => e.roles
  | none => Roles.empty

/-- A list of numbers in which two are equal. -/
def hasRepeat : List Nat → Bool
  | [] => false
  | x :: rest => rest.contains x || hasRepeat rest

/-- Group own entry (R190): the own number is absent from the station list. -/
def ownError (im : Image) : Bool := !(im.stations.any fun e => e.number == im.own)

/-- Group station list (R190). -/
def stationsError (im : Image) : Bool :=
  im.stations.length < 2 || 16 < im.stations.length || hasRepeat (im.stations.map (·.number)) || im.stations.any (fun e => e.roles == Roles.empty)

/-- Group tracks and DPs (R190), over the track count as stored. -/
def tracksError (tracks : Nat) (im : Image) : Bool :=
  (tracks != 1 && tracks != 2) || im.dps.any (fun d => !(rolesOf im.stations d.owner).detect)
    || hasRepeat (im.dps.map fun d => d.owner * 2 + d.slot.val)
    || im.dps.any (fun d => d.distance < 50 || 4000 < d.distance || d.spacing < 100 || 600 < d.spacing)

/-- Group posts and reporting (R190). -/
def postsError (im : Image) : Bool :=
  let posts := (im.stations.filter fun e => e.roles.post).length
  let sigs := im.stations.filter fun e => e.signaller
  posts < 1 || 4 < posts || im.dcis.any (fun d => !(rolesOf im.stations d.station).report)
    || hasRepeat (im.dcis.map fun d => d.station * 2 + d.out.val) || sigs.length != 1 || sigs.any (fun e => !e.roles.report)

/-- Group limits (R190): a pair whose low limit is not below its high limit. -/
def limitsError (r : RawImage) : Bool := r.limits.any fun l => rec2 l 2 ≤ rec2 l 0

/-- The records of a list in order, traced from its head (R126): none where an index is not held, a record is reached twice or LAST is not reached within
24 records. A record that no list reaches is not checked (log 54). -/
def traceList (steps : List StepRec) : Nat → List Nat → Nat → Option (List Nat)
  | 0, _, _ => none
  | fuel + 1, seen, i =>
    if 24 ≤ i ∨ seen.contains i then none
    else
      match steps[i]? with
      | none => none
      | some st =>
        match st.next with
        | none => some (seen ++ [i])
        | some j => traceList steps fuel (seen ++ [i]) j

/-- Whether the FAILED list ends in a record with red ALTERNATE and barrier LOWER (R126). -/
def failedListEnds (im : Image) : Bool :=
  match traceList im.steps 24 [] im.failedHead with
  | none => false
  | some l =>
    match im.steps[l.getLastD 0]? with
    | none => false
    | some st => st.red == .alternate && st.barrier == .lower

/-- Group step lists (R190, R126): more than 24 records, an undefined code, a list that cannot be walked, a FAILED list that does not end as asked. -/
def stepsError (r : RawImage) (im : Image) : Bool :=
  24 < r.steps.length || r.steps.any stepUndefined || (traceList im.steps 24 [] im.closeHead).isNone
    || (traceList im.steps 24 [] im.openHead).isNone || !failedListEnds im

/-- What the load check finds (R190): the image in force with its digest and whether a value was clamped, a declared lockout with the same, or a blind
lockout with the own number that the image gave, 0 where none could be read (log 24). -/
inductive LoadOutcome where
  | passed (im : Image) (digest : Half) (clamped : Bool)
  | declared (im : Image) (digest : Half) (clamped : Bool)
  | blind (own : Nat)
deriving DecidableEq, Repr

/-- The load check (R190, R192): errors of the image and own-entry groups first, then those of the other groups. -/
def loadCheck (answers : Bool) (readBackOk : Bool) (m : List Host.Cell) : LoadOutcome :=
  match (if answers then readImage m else none) with
  | none => .blind 0
  | some r =>
    let im := r.settle
    if ownError im then .blind im.own
    else if !readBackOk || stationsError im || tracksError r.tracks im || postsError im || limitsError r || stepsError r im then
      .declared im r.digest r.clamped
    else .passed im r.digest r.clamped

end Sys2Proof.Machine
end

