-- ==== Sys2Proof/Machine/Ops.lean ====
section
/-! DEFINITION. Shared operations: station time, the condition set, the notice list. -/

namespace Sys2Proof.Machine

/-! ### Station time (00, "Station time"; R30) -/

/-- The clock after `dt` microseconds: both counters wrap at 32 bits, the millisecond count is derived from the microseconds. -/
def Clock.advance (c : Clock) (dt : Nat) : Clock :=
  { us := c.us + BitVec.ofNat 32 dt, ms := c.ms + BitVec.ofNat 32 ((c.frac + dt) / 1000), frac := (c.frac + dt) % 1000 }

/-- The age of a peer entry after `n` milliseconds, held at 2^30 ms (R93). -/
def Peer.grow (n : Nat) (p : Peer) : Peer := { p with age := p.age.map fun a => min (a + n) (2 ^ 30) }

/-- The passing of `dt` microseconds: the clock and the peers' ages move, and nothing else. -/
def advance (dt : Nat) (s : State) : State :=
  { s with clock := s.clock.advance dt, peers := s.peers.map (Peer.grow ((s.clock.frac + dt) / 1000)) }

/-- Milliseconds from a station time to now, modulo 2^32. -/
def sinceMs (s : State) (t : Time) : Nat := (s.clock.ms - t).toNat

/-- Microseconds from a station time to now, modulo 2^32. -/
def sinceUs (s : State) (t : Time) : Nat := (s.clock.us - t).toNat

/-- A time is the current one or earlier than it (R30). -/
def reached (now t : Time) : Bool := (now - t).toNat < 2 ^ 31

/-- A time is earlier than another (R30). -/
def earlier (x y : Time) : Bool := 0 < (y - x).toNat && (y - x).toNat < 2 ^ 31

/-- A station time some milliseconds later. -/
def later (t : Time) (n : Nat) : Time := t + BitVec.ofNat 32 n

/-- The millisecond count at an earlier instant of the microsecond counter (R26). -/
def msAt (s : State) (us : Time) : Time :=
  let e := sinceUs s us
  if e ≤ s.clock.frac then s.clock.ms else s.clock.ms - BitVec.ofNat 32 ((e - s.clock.frac + 999) / 1000)

/-- An interval timer started at `start`, where it runs, has run for `n` ms. -/
def ranFor (s : State) (start : Option Time) (n : Nat) : Bool :=
  match start with
  | none => false
  | some t => n ≤ sinceMs s t

/-! ### Signals inside one step (R106) -/

/-- What one block hands to another in the handling of one event: an event for phase evaluation, a possible change of the current step's wait condition
(R129), the end of a run (R135), the entry into JOINED (R110). -/
inductive Sig where
  | evaluate
  | judge
  | seqEnded (how : EndHow)
  | enteredJoined
deriving DecidableEq, Repr

/-- A state with the signals that its making has given. -/
abbrev Work := State × List Sig

/-- One piece of work after another: the signals keep their order. -/
def Work.andThen (w : Work) (f : State → Work) : Work := ((f w.1).1, w.2 ++ (f w.1).2)

/-! ### Conditions (R172 to R176) -/

/-- A condition of a kind, subject number and item; a stored own number above 15, as blind lockout may find one, is taken modulo 16 (log 24). -/
def condOf (kind : CondKind) (subject : Nat) (item : Nat) : CondId :=
  { kind := kind, subject := Fin.ofNat 16 subject, item := Fin.ofNat 8 item }

/-- The rank of a condition: class, kind number, subject number, item, lower first (R173). -/
def CondId.rank (c : CondId) : Nat := ((c.kind.cls * 32 + c.kind.num) * 16 + c.subject.val) * 8 + c.item.val

/-- An element put at its place in a list of rising rank. -/
def insertRanked {α : Type} (rank : α → Nat) (x : α) : List α → List α
  | [] => [x]
  | y :: rest => if rank x < rank y then x :: y :: rest else y :: insertRanked rank x rest

/-! ### The notice list (R177 to R183) -/

/-- The pairs of kind and subject of all sources, each once, in rank order (R178): the own condition set whole, and the list last entered from each
peer. -/
def presentSet (s : State) : List CondId :=
  (s.conds.map (·.id) ++ s.peers.flatMap (·.conds)).foldl (fun l c => if l.contains c then l else insertRanked CondId.rank c l) []

/-- The list holds an entry for a pair. -/
def hasNotice (l : List Notice) (c : CondId) : Bool := l.any fun n => n.id == c

/-- A new entry, RAISED and change-pending (R180). -/
def Notice.fresh (c : CondId) : Notice := { id := c, state := .raised, pend := true }

/-- A newcomer meets the list (R180). -/
def NoticeUnit.newcomer (u : NoticeUnit) (c : CondId) : NoticeUnit :=
  if u.entries.length < 16 then { u with entries := insertRanked (fun n => n.id.rank) (Notice.fresh c) u.entries }
  else
    match u.entries.getLast? with
    | none => u
    | some last =>
      if c.rank < last.id.rank then
        { u with entries := insertRanked (fun n => n.id.rank) (Notice.fresh c) u.entries.dropLast, saturated := true }
      else { u with saturated := true }

/-- An entry whose pair appears (R181). -/
def Notice.appear (n : Notice) : Notice :=
  match n.state with
  | .cleared | .gone => { n with state := .raised, pend := true }
  | .raised | .acked => n

/-- An entry whose pair disappears (R181). -/
def Notice.disappear (n : Notice) : Notice :=
  match n.state with
  | .raised => { n with state := .cleared, pend := true }
  | .acked => { n with state := .gone, pend := true }
  | .cleared | .gone => n

/-- A change of the one entry of a pair. -/
def NoticeUnit.mapEntry (u : NoticeUnit) (c : CondId) (f : Notice → Notice) : NoticeUnit :=
  { u with entries := u.entries.map fun n => if n.id = c then f n else n }

/-- A pair appears (R180, R181). -/
def NoticeUnit.appears (u : NoticeUnit) (c : CondId) : NoticeUnit :=
  if hasNotice u.entries c then u.mapEntry c Notice.appear else u.newcomer c

/-- The notice unit computes the present set anew and takes appearances in rank order, then disappearances (R178). -/
def noticeSync (s : State) : State :=
  if s.notices.kept then
    let new := presentSet s
    let old := s.notices.present
    let u1 := (new.filter fun c => !old.contains c).foldl NoticeUnit.appears s.notices
    let u2 := (old.filter fun c => !new.contains c).foldl (fun u c => u.mapEntry c Notice.disappear) u1
    { s with notices := { u2 with present := new } }
  else s

/-- The condition stands in the own condition set. -/
def hasCond (s : State) (c : CondId) : Bool := s.conds.any fun e => e.id == c

/-- The expiry time of an INFO condition raised now, none for the other classes (R175). -/
def expiryFor (s : State) (c : CondId) : Option Time := if c.kind.cls = 3 then some (later s.clock.ms 1000) else none

/-- The entry with which a condition raised now enters the set. -/
def condEntry (s : State) (c : CondId) : CondEntry := { id := c, expiry := expiryFor s c }

/-- The conditions as published (R84, R176): the first eight entries in rank order. -/
def condList (s : State) : List CondId := (s.conds.take 8).map (·.id)

/-- A change of a published field counted, so that one taken back in the same event still asks for a STATUS (R72, R176). -/
def countChange (changed : Bool) (s : State) : State := if changed then { s with changes := s.changes + 1 } else s

/-- New contents of the condition set, handed to the STATUS timing and to the notice unit (R176). -/
def putConds (l : List CondEntry) (s : State) : State :=
  let s1 := { s with conds := l }
  noticeSync (countChange (condList s1 != condList s || l.length != s.conds.length) s1)

/-- A block raises a condition (R174): one entry is kept, an INFO expiry is set afresh, and at capacity the lowest-ranked entry gives way to a higher one.
A change of contents is handed on (R176). -/
def raiseCond (c : CondId) (s : State) : State :=
  if hasCond s c then
    if c.kind.cls = 3 then { s with conds := s.conds.map fun e => if e.id = c then condEntry s c else e } else s
  else if s.conds.length < 31 then
    putConds (insertRanked (fun e => e.id.rank) (condEntry s c) s.conds) s
  else
    match s.conds.getLast? with
    | none => s
    | some last =>
      if c.rank < last.id.rank then
        putConds (insertRanked (fun e => e.id.rank) (condEntry s c) s.conds.dropLast) s
      else s

/-- A block clears a condition (R175). -/
def clearCond (c : CondId) (s : State) : State :=
  if hasCond s c then putConds (s.conds.filter fun e => e.id ≠ c) s else s

/-- Raises or clears. -/
def setCond (on : Bool) (c : CondId) (s : State) : State := if on then raiseCond c s else clearCond c s

end Sys2Proof.Machine
end

