-- ==== Sys2Proof/Machine/Operands.lean ====
section
/-! DEFINITION. How commands and blocks name their records: stations and roles, DP slots and ids, sections, peers. -/

namespace Sys2Proof.Machine

/-! ### Stations and roles (R188, R109) -/

/-- The station's own role set: the one its own number carries (R188). -/
def ownRoles (s : State) : Roles := rolesOf s.cfg.stations s.cfg.own

/-- The station holds POST. -/
def isPost (s : State) : Bool := (ownRoles s).post

/-- The station holds REPORT. -/
def isReport (s : State) : Bool := (ownRoles s).report

/-- The signaller line is enabled at this station (R188); of two entries with the own number, in declared lockout, the flag of either counts (log 23). -/
def hasSignaller (s : State) : Bool := s.cfg.stations.any fun e => e.number == s.cfg.own && e.signaller

/-- The configured posts: the stations whose role set in the station list holds POST (R109); of two entries with one number, in declared lockout, either
may hold it (log 23). -/
def posts (s : State) : List Nat := (s.cfg.stations.filter fun e => e.roles.post).map (·.number)

/-- A condition whose subject is this station. -/
def ownCond (s : State) (kind : CondKind) (item : Nat) : CondId := condOf kind s.cfg.own item

/-! ### Detection points (00, "Crossing dimensions"; R40, R43) -/

/-- The own DP of a slot. -/
def dpAt (s : State) (slot : Slot) : Option DpUnit := s.dps.find? fun u => u.slot == slot

/-- The own DP of a DP id. -/
def ownDp (s : State) (id : Nat) : Option DpUnit := s.dps.find? fun u => u.id == id

/-- The state with an own DP's record replaced, found by its slot. -/
def putDp (u : DpUnit) (s : State) : State := { s with dps := s.dps.map fun v => if v.slot = u.slot then u else v }

/-- A head of a DP. -/
def DpUnit.head (u : DpUnit) : HeadPos → Head
  | .first => u.first
  | .second => u.second

/-- A DP with one head changed. -/
def DpUnit.mapHead (u : DpUnit) (f : Head → Head) : HeadPos → DpUnit
  | .first => { u with first := f u.first }
  | .second => { u with second := f u.second }

/-- The other head. -/
def otherHead : HeadPos → HeadPos
  | .first => .second
  | .second => .first

/-- The head nearer the crossing (R1). -/
def DpUnit.nearer (u : DpUnit) : HeadPos := if u.nearSecond then .second else .first

/-- A level of a pair of levels. -/
def levelAt (l : Levels) : HeadPos → Nat
  | .first => l.first
  | .second => l.second

/-- The item number of a head in CALIBRATION_FAILED (R172). -/
def headItem : HeadPos → Nat
  | .first => 0
  | .second => 1

/-- Both filtered levels are CLEAR (R22). -/
def DpUnit.headsClear (u : DpUnit) : Bool := !u.first.covered && !u.second.covered

/-- The DP is an outer one. -/
def dpOuter (id : Nat) : Bool := id % 4 == 0 || id % 4 == 3

/-- The sections that a DP bounds (R40). -/
def boundedBy (id : Nat) : List Nat :=
  let t := id / 4 * 3
  match id % 4 with
  | 0 => [t]
  | 1 => [t, t + 1]
  | 2 => [t + 1, t + 2]
  | _ => [t + 2]

/-- The section on the crossing side of a DP: its approach section for an outer DP, the island for an inner one (R26, R43). -/
def crossingSide (id : Nat) : Nat :=
  let t := id / 4 * 3
  match id % 4 with
  | 0 => t
  | 1 => t + 1
  | 2 => t + 1
  | _ => t + 2

/-- The kind of a section id (00, "Crossing dimensions"). -/
def sectKindOf (id : Nat) : SectKind :=
  match id % 3 with
  | 0 => .approachA
  | 1 => .island
  | _ => .approachB

/-- The DP at a section's outer or A end (R40). -/
def outerDpOf (id : Nat) : Nat :=
  match id % 3 with
  | 0 => id / 3 * 4
  | 1 => id / 3 * 4 + 1
  | _ => id / 3 * 4 + 3

/-- The DP at a section's island or B end (R40). -/
def innerDpOf (id : Nat) : Nat :=
  match id % 3 with
  | 0 => id / 3 * 4 + 1
  | 1 => id / 3 * 4 + 2
  | _ => id / 3 * 4 + 2

/-! ### Sections -/

/-- The record of a section id. -/
def sectAt (s : State) (id : Nat) : Option Sect := s.sections.find? fun r => r.id == id

/-- The section is an approach section. -/
def Sect.isApproach (r : Sect) : Bool := r.kind != .island

/-- An approach section is approaching while OCCUPIED with tag FAR or BOTH (R51). -/
def Sect.approaching (r : Sect) : Bool := r.isApproach && r.state == .occupied && (r.tag == some .far || r.tag == some .both)

/-! ### The DP view (R41) -/

/-- An own DP's entry follows its unit. -/
def DpUnit.view (u : DpUnit) (own : Nat) : ViewEntry :=
  { dp := u.id, owner := own, state := u.state, latest := some { inn := u.inn, out := u.out, epoch := u.epoch }, headsClear := u.headsClear,
    lastSpeed := u.lastSpeed }

/-- The entry of a DP in the DP view. -/
def viewOf (s : State) (dp : Nat) : Option ViewEntry :=
  match ownDp s dp with
  | some u => some (u.view s.cfg.own)
  | none => s.view.find? fun v => v.dp == dp

/-- The whole DP view in order of DP id. -/
def wholeView (s : State) : List ViewEntry := (List.range s.cfg.dps.length).filterMap (viewOf s)

/-- The known state of a DP; LOST where the view holds none. -/
def knownState (s : State) (dp : Nat) : DpState := ((viewOf s dp).map (·.state)).getD .lost

/-- The latest counts of a DP. -/
def latestOf (s : State) (dp : Nat) : Option Counts := (viewOf s dp).bind (·.latest)

/-- A change of one peer DP's entry. -/
def mapView (dp : Nat) (f : ViewEntry → ViewEntry) (s : State) : State :=
  { s with view := s.view.map fun v => if v.dp = dp then f v else v }

/-- A DP is usable for the completion of a sweep: WORKING or CALIBRATING (R57). -/
def dpUsable (s : State) (dp : Nat) : Bool := knownState s dp == .working || knownState s dp == .calibrating

/-! ### Peers (R93) -/

/-- The entry of a station. -/
def peerAt (s : State) (n : Nat) : Option Peer := s.peers.find? fun p => p.station == n

/-- The state with a peer's entry replaced. -/
def putPeer (p : Peer) (s : State) : State := { s with peers := s.peers.map fun q => if q.station = p.station then p else q }

/-- A post's barrier state as R109 reads it. -/
def postBarrier (s : State) (n : Nat) : Option BarrierState :=
  if n = s.cfg.own then some s.barrier.state else (peerAt s n).bind fun p => p.post.map (·.barrier)

/-- A post's phase as R109 reads it. -/
def postPhase (s : State) (n : Nat) : Option Phase :=
  if n = s.cfg.own then some s.phase.phase else (peerAt s n).bind (·.phase)

/-- Every configured post reports barrier DOWN. -/
def allDown (s : State) : Bool := (posts s).all fun n => postBarrier s n == some .down

/-- Every configured post reports barrier UP. -/
def allUp (s : State) : Bool := (posts s).all fun n => postBarrier s n == some .up

end Sys2Proof.Machine
end

