-- ==== Sys2Proof/Machine/Flags.lean ====
section
/-! DEFINITION. One-bit event records: the ten latches (R187) and the edge flags of a head (R5). -/

namespace Sys2Proof.Machine

/-- The latches (R187). -/
inductive Latch where
  | lineADrop
  | lineBDrop
  | crcSeen
  | collisionSeen
  | txRetrySeen
  | calAbandoned
  | unorderedSeen
  | lateArrivalSeen
  | speedClamped
  | slewLimited
deriving DecidableEq, Repr

/-- The latches with one set. -/
def Latches.set (l : Latches) : Latch → Latches
  | .lineADrop => { l with lineADrop := true }
  | .lineBDrop => { l with lineBDrop := true }
  | .crcSeen => { l with crcSeen := true }
  | .collisionSeen => { l with collisionSeen := true }
  | .txRetrySeen => { l with txRetrySeen := true }
  | .calAbandoned => { l with calAbandoned := true }
  | .unorderedSeen => { l with unorderedSeen := true }
  | .lateArrivalSeen => { l with lateArrivalSeen := true }
  | .speedClamped => { l with speedClamped := true }
  | .slewLimited => { l with slewLimited := true }

/-- Sets an event latch (R187). -/
def setLatch (l : Latch) (s : State) : State := { s with latches := s.latches.set l }

/-- Sets the edge flag of an accepted edge: cover seen or clear seen (R5). -/
def Head.markEdge (h : Head) (cover : Bool) : Head := if cover then { h with coverSeen := true } else { h with clearSeen := true }

/-- A level taken as accepted sets cover seen if it is COVERED and no flag if it is CLEAR (R5). -/
def Head.markLevel (h : Head) : Head := if h.covered then { h with coverSeen := true } else h

/-- Both edge flags cleared (R5, SHOW DETECTION). -/
def Head.clearFlags (h : Head) : Head := { h with coverSeen := false, clearSeen := false }

end Sys2Proof.Machine
end

