-- ==== Sys2Proof/Machine/Sections.lean ====
section
/-! DEFINITION. The section tracker (chapter 03): section records, applying counts, loss and return of an owner, the held flag, reset orders. -/

namespace Sys2Proof.Machine

/-! ### One record -/

/-- A record after either reset (R40): UNKNOWN, or RESTORING where the image's start-restoring flag is set. -/
def Sect.start (restoring : Bool) (id : Nat) : Sect :=
  { id := id, kind := sectKindOf id, balance := 0, state := if restoring then .restoring else .unknown, tag := none, deadline := none, t0 := none,
    strikes := 0, held := false, sweepAxles := 0, underlying := none, awaited := [], baseOuter := none, baseInner := none }

/-- A candidate deadline under the only-earlier test (R31). -/
def Sect.earlierDeadline (c : Time) (r : Sect) : Sect :=
  match r.deadline with
  | none => { r with deadline := some c }
  | some d => if earlier c d then { r with deadline := some c } else r

/-- Entry into DISTURBED (R52): held flag, underlying state and awaited owners go; deadline, t0 and strike axles stay (R32). The entry tag and the
sweep axles are not present in this state (R40). -/
def Sect.disturb (r : Sect) : Sect :=
  if r.state = .disturbed then r
  else { r with state := .disturbed, tag := none, held := false, sweepAxles := 0, underlying := none, awaited := [] }

/-- UNKNOWN with no underlying state, unless DISTURBED (R48). -/
def Sect.forget (r : Sect) : Sect :=
  if r.state = .disturbed then r
  else { r with state := .unknown, tag := none, held := false, sweepAxles := 0, underlying := none, awaited := [] }

/-- The loss of an owner (R54). -/
def Sect.loseOwner (n : Nat) (r : Sect) : Sect :=
  match r.state with
  | .clear | .occupied | .restoring => { r with state := .unknown, underlying := some r.state, awaited := [n], held := false }
  | .unknown => if r.underlying.isSome ∧ !r.awaited.contains n then { r with awaited := r.awaited ++ [n] } else r
  | .disturbed => r

/-- The removals at a change to CLEAR (R50, R57). -/
def Sect.emptied (r : Sect) : Sect :=
  { r with tag := none, deadline := none, t0 := none, strikes := 0, held := false, sweepAxles := 0 }

/-- The state that counts act on: the state itself, or the underlying state of an UNKNOWN record (R42, R55). -/
def Sect.effective (r : Sect) : Option SectState :=
  match r.state with
  | .clear => some .clear
  | .occupied => some .occupied
  | .restoring => some .restoring
  | .unknown => r.underlying
  | .disturbed => none

/-- The record with that state moved. -/
def Sect.withEffective (r : Sect) (st : SectState) : Sect :=
  if r.state = .unknown then { r with underlying := some st } else { r with state := st }

/-- The entry tag after entries at the far end, the near end or both (R51). -/
def tagAfter (tag : Option Tag) (far near : Bool) : Option Tag :=
  match tag, far, near with
  | t, false, false => t
  | none, true, false => some .far
  | none, false, true => some .near
  | none, true, true => some .both
  | some .far, _, true => some .both
  | some .near, true, _ => some .both
  | some t, _, _ => some t

/-- The axles that one frame, or one own axle, brings to a record: in-counts at the far end, in-counts at the near end (or into the island), out-counts. -/
structure Moves where
  far : Nat
  near : Nat
  outs : Nat
deriving DecidableEq, Repr

/-- No axles. -/
def Moves.none : Moves := { far := 0, near := 0, outs := 0 }

/-- The axles of two DPs together (R46). -/
def Moves.add (a b : Moves) : Moves := { far := a.far + b.far, near := a.near + b.near, outs := a.outs + b.outs }

/-- Some axle moves. -/
def Moves.any (m : Moves) : Bool := 0 < m.far + m.near + m.outs

/-- A record's counts applied: every in-count, then every out-count, within 0 to 4095 (R46, R49), and the state they lead to (R50, R55, R57). `usable` says
that both bounding DPs are WORKING or CALIBRATING. -/
def Sect.count (minSweep : Nat) (usable : Bool) (m : Moves) (r : Sect) : Sect :=
  match r.effective with
  | none => r
  | some st =>
    let ins := m.far + m.near
    if !m.any then r
    else if 4095 < r.balance + ins then { r.disturb with balance := 4095 }
    else if r.balance + ins < m.outs then { r.disturb with balance := 0 }
    else
      let b := r.balance + ins - m.outs
      let r1 := { r with balance := b }
      match st with
      | .restoring =>
        let sw := min (r.sweepAxles + ins) minSweep
        if b = 0 ∧ 0 < m.outs ∧ minSweep ≤ sw ∧ usable ∧ r.state = .restoring then (r1.withEffective .clear).emptied
        else { r1 with sweepAxles := sw }
      | _ =>
        if b = 0 then (r1.withEffective .clear).emptied
        else { (r1.withEffective .occupied) with tag := if r.isApproach then tagAfter r.tag (0 < m.far) (0 < m.near) else none }

/-- What an axle does besides counting: a tag that becomes BOTH sets the deadline to now (R51), and a set held flag is cleared with the deadline set to
now where the section is still approaching (R59). -/
def Sect.applyMoves (now : Time) (minSweep : Nat) (usable : Bool) (m : Moves) (r : Sect) : Sect :=
  let r1 := r.count minSweep usable m
  let r2 := if r1.state = .occupied ∧ r1.tag = some .both ∧ r.tag ≠ some .both then r1.earlierDeadline now else r1
  if r.held ∧ m.any then
    let r3 := { r2 with held := false }
    if r3.approaching then r3.earlierDeadline now else r3
  else r2

/-- The axles that a DP's inward and outward counts bring to a record that it bounds (R43). -/
def movesOf (dp sec inward outward : Nat) : Moves :=
  if crossingSide dp = sec then
    if dpOuter dp then { far := inward, near := 0, outs := outward } else { far := 0, near := inward, outs := outward }
  else { far := 0, near := outward, outs := inward }

/-- The record's baseline for a DP. -/
def Sect.base (r : Sect) (dp : Nat) : Option Counts := if dp = outerDpOf r.id then r.baseOuter else r.baseInner

/-- The record with its baseline for a DP set. -/
def Sect.setBase (dp : Nat) (c : Option Counts) (r : Sect) : Sect :=
  if dp = outerDpOf r.id then { r with baseOuter := c } else { r with baseInner := c }

/-- How a frame's counts of one DP stand against a record's baseline (R45, R47, R48). -/
inductive CountsJudged where
  | first
  | newEpoch
  | implausible
  | axles (inward outward : Nat)
deriving DecidableEq, Repr

/-- The comparison of R45. -/
def judgeCounts (base : Option Counts) (c : Counts) : CountsJudged :=
  match base with
  | none => .first
  | some b =>
    if b.epoch ≠ c.epoch then .newEpoch
    else if 1000 < (c.inn - b.inn).toNat ∨ 1000 < (c.out - b.out).toNat then .implausible
    else .axles (c.inn - b.inn).toNat (c.out - b.out).toNat

/-- The published counts of one DP. -/
structure DpCounts where
  dp : Nat
  counts : Counts
deriving DecidableEq, Repr

/-- The axles that a frame's DPs bring to a record together (R46). -/
def frameMoves (reps : List DpCounts) (r : Sect) : Moves :=
  reps.foldl (fun m d =>
    match judgeCounts (r.base d.dp) d.counts with
    | .axles i o => m.add (movesOf d.dp r.id i o)
    | _ => m) Moves.none

/-- A frame's counts applied to one record (R45 to R48): an implausible difference makes it DISTURBED once the differences of the frame's other DP have been
applied, a new epoch makes it UNKNOWN (log 51), otherwise the differences of the frame are applied together; then its baselines are the frame's. `reps` are
the frame's DPs that bound the record. -/
def Sect.applyFrame (now : Time) (minSweep : Nat) (usable : Bool) (reps : List DpCounts) (r : Sect) : Sect :=
  let judged := reps.map fun d => judgeCounts (r.base d.dp) d.counts
  let r1 :=
    if judged.contains .implausible then (r.count minSweep usable (frameMoves reps r)).disturb
    else if judged.contains .newEpoch then r.forget
    else r.applyMoves now minSweep usable (frameMoves reps r)
  reps.foldl (fun r d => r.setBase d.dp (some d.counts)) r1

/-- The return of an awaited owner once its counts have been applied (R56). -/
def Sect.returnOwner (now : Time) (n : Nat) (r : Sect) : Sect :=
  match r.state, r.underlying with
  | .unknown, some u =>
    let aw := r.awaited.filter (· ≠ n)
    if aw = [] then
      let r1 := { r with state := u, underlying := none, awaited := [] }
      if r1.approaching then r1.earlierDeadline now else r1
    else { r with awaited := aw }
  | _, _ => r

/-- A section that has become approaching, or is approaching with no deadline, gets the current time (R36); `taken` says that a candidate of the frame
was considered for it (R35). -/
def Sect.closeAtOnce (now : Time) (before : Sect) (taken : Bool) (r : Sect) : Sect :=
  if r.approaching ∧ !r.held ∧ (r.deadline = none ∨ (!before.approaching ∧ !taken)) then r.earlierDeadline now else r

/-- A received candidate deadline (R35): only for an approaching section that is not held. -/
def Sect.candidate (c : Time) (r : Sect) : Sect := if r.approaching ∧ !r.held then r.earlierDeadline c else r

/-! ### The table -/

/-- The conditions that follow a section's state (R42): each raised at the entry into its state, cleared at the departure, the clearing first (log
69). -/
def sectConds (before after : SectState) (id : Nat) (s : State) : State :=
  if before = after then s
  else
    let s1 := if before = .unknown then clearCond (condOf .sectionUnknown id 0) s else s
    let s2 := if before = .disturbed then clearCond (condOf .sectionDisturbed id 0) s1 else s1
    let s3 := if after = .unknown then raiseCond (condOf .sectionUnknown id 0) s2 else s2
    if after = .disturbed then raiseCond (condOf .sectionDisturbed id 0) s3 else s3

/-- An island that becomes CLEAR clears LATE_ARRIVAL for its DPs (R39). -/
def islandCleared (before after : Sect) (s : State) : State :=
  if after.kind = .island ∧ after.state = .clear ∧ before.state ≠ .clear then
    clearCond (condOf .lateArrival (innerDpOf after.id) 0) (clearCond (condOf .lateArrival (outerDpOf after.id) 0) s)
  else s

/-- A cleared held flag is reported to the phase unit, which clears LONG_CLOSURE for a section it had released (R59, R121). -/
def heldCleared (before after : Sect) (s : State) : State :=
  if before.held ∧ !after.held ∧ s.phase.heldByRelease.contains after.id then
    clearCond (condOf .longClosure after.id 0)
      { s with phase := { s.phase with heldByRelease := s.phase.heldByRelease.filter (· ≠ after.id) } }
  else s

/-- A section record changes: the table, then everything that follows the change. -/
def putSect (r : Sect) (s : State) : State :=
  match sectAt s r.id with
  | none => s
  | some before =>
    let s1 := { s with sections := s.sections.map fun q => if q.id = r.id then r else q }
    heldCleared before r (islandCleared before r (sectConds before.state r.state r.id s1))

/-- The station is in the declared lockout of the load check (R190). -/
def declaredLockout (s : State) : Bool := s.join.state == .lockedOut && s.join.declared

/-- What a change leaves of a record in declared lockout, where sections stay UNKNOWN or RESTORING (R190; log 70): a change that would move the record
out of that state moves its baselines alone, and the balance of a RESTORING record. -/
def Sect.stay (before after : Sect) : Sect :=
  if after.state = before.state then after
  else
    match before.state with
    | .unknown => { before with baseOuter := after.baseOuter, baseInner := after.baseInner }
    | .restoring => { before with balance := after.balance, baseOuter := after.baseOuter, baseInner := after.baseInner }
    | .clear | .occupied | .disturbed => after

/-- A change of one record by its id; in declared lockout its state stays (R190). -/
def mapSect (id : Nat) (f : Sect → Sect) (s : State) : State :=
  match sectAt s id with
  | none => s
  | some r => putSect (if declaredLockout s then r.stay (f r) else f r) s

/-- A change of every record of a list of ids. -/
def mapSects (ids : List Nat) (f : Sect → Sect) (s : State) : State := ids.foldl (fun s id => mapSect id f s) s

/-- Both bounding DPs of a section are usable for the completion of a sweep (R57). -/
def sectUsable (s : State) (id : Nat) : Bool := dpUsable s (outerDpOf id) && dpUsable s (innerDpOf id)

/-- A DP becomes FAULTED: every section it bounds becomes DISTURBED (R53). -/
def dpFaultsSections (dp : Nat) (s : State) : State := mapSects (boundedBy dp) Sect.disturb s

/-- The owner of a DP by this station's own DP table. -/
def ownerOf (s : State) (dp : Nat) : Option Nat := s.cfg.dps[dp]?.map (·.owner)

/-- The DPs that this station's own table gives to a peer. -/
def dpsOf (s : State) (n : Nat) : List Nat := (List.range s.cfg.dps.length).filter fun d => ownerOf s d == some n

/-- The sections bounded by any of a list of DPs, each once. -/
def sectionsOfDps (s : State) (dps : List Nat) : List Nat := (s.sections.map (·.id)).filter fun i => dps.any fun d => (boundedBy d).contains i

/-- A peer leaves LIVE: its DPs become LOST and their sections lose an owner (R54). -/
def loseOwner (n : Nat) (s : State) : State :=
  let s1 := { s with view := s.view.map fun v => if v.owner = n then { v with state := .lost } else v }
  mapSects (sectionsOfDps s (dpsOf s n)) (Sect.loseOwner n) s1

/-- Published counts of a peer applied to every record that their DPs bound (R45, R46), with the returning owner where there is one (R56), a STRIKE's
candidate for one section where there is one (R35), and the deadline of R36. No sweep is completed in declared lockout (R190; log 70). -/
def peerCounts (reps : List DpCounts) (returning : Option Nat) (candidate : Option (Nat × Time)) (s : State) : State :=
  let now := s.clock.ms
  (sectionsOfDps s (reps.map (·.dp))).foldl (fun w id =>
    mapSect id (fun r =>
      let r1 := r.applyFrame now s.cfg.timing.minSweepAxles (sectUsable s id && !declaredLockout s) (reps.filter fun d => (boundedBy d.dp).contains id)
      let r2 := match returning with
        | some n => r1.returnOwner now n
        | none => r1
      let cand := match candidate with
        | some (sec, c) => if sec = id then some c else none
        | none => none
      let r3 := match cand with
        | some c => r2.candidate c
        | none => r2
      Sect.closeAtOnce now r (cand.isSome && r2.approaching && !r2.held) r3) w) s

/-- The held flag is set at the phase unit's request, where the section is approaching (R58). -/
def Sect.hold (r : Sect) : Sect := { r with held := true, deadline := none }

/-- A reset order applied to a record (R62). -/
def Sect.reset (kind : ResetKind) (outer inner : Option Counts) (r : Sect) : Sect :=
  { r.emptied with balance := 0, underlying := none, awaited := [], baseOuter := outer, baseInner := inner,
                   state := match kind with
                     | .sweep => .restoring
                     | .direct => .clear }

/-- A reset order applied at this station (R62): the baselines come from the DP view's latest counts. -/
def applyReset (kind : ResetKind) (id : Nat) (s : State) : State :=
  mapSect id (Sect.reset kind (latestOf s (outerDpOf id)) (latestOf s (innerDpOf id))) s

/-- A bounding DP is WORKING in the DP view with its heads clear (R60, R61). -/
def dpProven (s : State) (dp : Nat) : Bool :=
  match viewOf s dp with
  | some v => v.state == .working && v.headsClear
  | none => false

/-- Both bounding DPs of a section are WORKING with their heads clear. -/
def sectProven (s : State) (id : Nat) : Bool := dpProven s (outerDpOf id) && dpProven s (innerDpOf id)

/-- Every section that a DP bounds is CLEAR (R7). -/
def boundsClear (s : State) (dp : Nat) : Bool := (boundedBy dp).all fun i => (sectAt s i).any fun r => r.state == .clear

end Sys2Proof.Machine
end

