-- ==== Sys2Proof/Machine/Lights.lean ====
section
/-! DEFINITION. The road lights, the flash timebase and the lamp strings (chapter 08, R142 to R150, R159, R160; R163 and R164 share them). -/

namespace Sys2Proof.Machine

/-! ### Lamp strings (R147 to R149, R164) -/

/-- A current between its limits gives a good result, below the low or above the high one a failed result (R147, R148, R164). -/
def withinLimits (l : Limits) (mA : Nat) : Bool := l.low ≤ mA && mA ≤ l.high

/-- A result moves a string's state and counts (R149). -/
def LampString.result (good : Bool) (l : LampString) : LampString :=
  match l.out, good with
  | false, false => if 3 ≤ l.failed + 1 then { out := true, failed := 0, good := 0 } else { l with failed := l.failed + 1, good := 0 }
  | false, true => { l with failed := 0 }
  | true, true => if 3 ≤ l.good + 1 then { out := false, failed := 0, good := 0 } else { l with good := l.good + 1, failed := 0 }
  | true, false => { l with good := 0 }

/-- An aspect's state follows from its two strings (R150). -/
def AspectRec.state (r : AspectRec) : AspectState :=
  match r.main.out, r.second.out with
  | false, false => .ok
  | true, true => .failed
  | _, _ => .degraded

/-- The item number of an aspect (R150). -/
def aspectItem : Aspect → Nat
  | .amber => 0
  | .red1 => 1
  | .red2 => 2

/-- The record of an aspect. -/
def LightsUnit.aspect (u : LightsUnit) : Aspect → AspectRec
  | .amber => u.a0
  | .red1 => u.a1
  | .red2 => u.a2

/-- The lights with one aspect's record changed. -/
def LightsUnit.mapAspect (u : LightsUnit) (f : AspectRec → AspectRec) : Aspect → LightsUnit
  | .amber => { u with a0 := f u.a0 }
  | .red1 => { u with a1 := f u.a1 }
  | .red2 => { u with a2 := f u.a2 }

/-- The lit limits of an aspect (R147). -/
def Image.lit (im : Image) : Aspect → Limits
  | .amber => im.amberLit
  | .red1 => im.red1Lit
  | .red2 => im.red2Lit

/-- The test limits of an aspect (R148). -/
def Image.test (im : Image) : Aspect → Limits
  | .amber => im.amberTest
  | .red1 => im.red1Test
  | .red2 => im.red2Test

/-! ### The pattern (R142) -/

/-- An aspect is lit while the pattern in force names it (R142). -/
def LightsUnit.lit (u : LightsUnit) : Aspect → Bool
  | .amber => u.amber
  | .red1 | .red2 => u.red != .off

/-- The aspects that the pattern drives in a half of the flash cycle (R142). -/
def LightsUnit.drives (u : LightsUnit) (second : Bool) : Aspect → Bool
  | .amber => u.amber
  | .red1 => u.red == .bothSteady || (u.red == .alternate && !second)
  | .red2 => u.red == .bothSteady || (u.red == .alternate && second)

/-- A drive switched on or off; switching on begins a lit interval, switching off ends it (R147). -/
def AspectRec.drive (now : Time) (on : Bool) (r : AspectRec) : AspectRec :=
  if r.driven = on then r else { r with driven := on, litStart := if on then some now else none }

/-- A half-cycle boundary: a string driven after it begins a new lit interval (R147). -/
def AspectRec.boundary (now : Time) (on : Bool) (r : AspectRec) : AspectRec :=
  { r with driven := on, litStart := if on then some now else none }

/-- Every aspect driven as the pattern commands. -/
def LightsUnit.driveAll (now : Time) (second : Bool) (f : Time → Bool → AspectRec → AspectRec) (u : LightsUnit) : LightsUnit :=
  { u with a0 := f now (u.drives second .amber) u.a0, a1 := f now (u.drives second .red1) u.a1, a2 := f now (u.drives second .red2) u.a2 }

/-- A pulse goes on for the aspects that are not lit; it ends where none is left (R148). -/
def LightsUnit.trimPulse (u : LightsUnit) : LightsUnit :=
  match u.pulse with
  | none => u
  | some p =>
    let q := { p with amber := p.amber && !u.lit .amber, red1 := p.red1 && !u.lit .red1, red2 := p.red2 && !u.lit .red2 }
    { u with pulse := if q.amber || q.red1 || q.red2 then some q else none }

/-- The conditions that follow an aspect's state (R150): that of the state left is cleared, that of the state entered raised. -/
def aspectConds (before after : AspectState) (a : Aspect) (s : State) : State :=
  if before = after then s
  else
    let s1 := match before with
      | .ok => s
      | .degraded => clearCond (ownCond s .aspectDegraded (aspectItem a)) s
      | .failed => clearCond (ownCond s .aspectFailed (aspectItem a)) s
    match after with
    | .ok => s1
    | .degraded => raiseCond (ownCond s1 .aspectDegraded (aspectItem a)) s1
    | .failed => raiseCond (ownCond s1 .aspectFailed (aspectItem a)) s1

/-- The results of the two strings of an aspect (R147, R148, R150). Both strings moving at one sample move the aspect's state once, from OK to FAILED or
back without a passing DEGRADED (log 66). -/
def aspectResults (a : Aspect) (lim : Limits) (mainMA secondMA : Nat) (s : State) : State :=
  let before := s.lights.aspect a
  let after := { before with main := before.main.result (withinLimits lim mainMA), second := before.second.result (withinLimits lim secondMA) }
  aspectConds before.state after.state a { s with lights := s.lights.mapAspect (fun _ => after) a }

/-- The results of a test pulse for the two strings of an aspect (R148): the strings as they stood before them are kept while the pulse lasts. -/
def aspectTest (a : Aspect) (lim : Limits) (mainMA secondMA : Nat) (s : State) : State :=
  aspectResults a lim mainMA secondMA
    { s with lights := s.lights.mapAspect (fun r => { r with priorMain := r.main, priorSecond := r.second }) a }

/-- The result of a test pulse discarded (R148, log 59): the strings of the aspect stand as they stood before it. -/
def discardResult (a : Aspect) (s : State) : State :=
  let before := s.lights.aspect a
  let after := { before with main := before.priorMain, second := before.priorSecond }
  aspectConds before.state after.state a { s with lights := s.lights.mapAspect (fun _ => after) a }

/-- An aspect that a sampled pulse still pulses is lit. -/
def LampPulse.spoiled (p : LampPulse) (u : LightsUnit) : Aspect → Bool
  | .amber => p.sampled && p.amber && u.lit .amber
  | .red1 => p.sampled && p.red1 && u.lit .red1
  | .red2 => p.sampled && p.red2 && u.lit .red2

/-- The results discarded of every aspect that the pattern has lit during its pulse (R148). -/
def discardResults (s : State) : State :=
  match s.lights.pulse with
  | none => s
  | some p => [Aspect.amber, .red1, .red2].foldl (fun w a => if p.spoiled w.lights a then discardResult a w else w) s

/-- A pattern handed over (R142, R148): it replaces the one before it whole, and ends the pulse of every aspect that it lights. -/
def applyPattern (amber : Bool) (red : RedField) (s : State) : State :=
  let s1 := discardResults
    { s with lights := ({ s.lights with amber := amber, red := red }).driveAll s.clock.ms s.flash.second AspectRec.drive }
  { s1 with lights := s1.lights.trimPulse }

/-! ### The flash timebase (R143 to R146) -/

/-- The flash cycle C in force. -/
def flashCycle (s : State) : Nat := s.cfg.timing.flashCycle

/-- The flash offset as it stands (R143). -/
def flashOffset (s : State) : Nat :=
  match s.flash.mode with
  | .stopped => 0
  | .running origin => min (sinceMs s origin) (flashCycle s - 1)
  | .holding _ => 0

/-- The candidates for the flash leader (R144): the station itself with POST, and every LIVE peer whose entry's role set holds POST. -/
def leaderCandidates (s : State) : List Nat :=
  (if isPost s then [s.cfg.own] else []) ++ (s.peers.filter fun p => p.roles.post && p.state == .live).map (·.station)

/-- The lowest of a list of numbers. -/
def lowest : List Nat → Option Nat
  | [] => none
  | x :: rest => match lowest rest with
    | none => some x
    | some y => some (min x y)

/-- The flash leader (R144): none in LOADING and LOCKED_OUT. -/
def leaderOf (s : State) : Option Nat :=
  if s.join.state = .loading ∨ s.join.state = .lockedOut then none else lowest (leaderCandidates s)

/-- The leader chosen afresh; a change drops the pending correction (R144). -/
def chooseLeader (s : State) : State :=
  let l := leaderOf s
  if l = s.flash.leader then s else { s with flash := { s.flash with leader := l, corr := none } }

/-- The error of a measurement (R145): leader's offset `p`, transit allowance `a`, own offset `o`, cycle `c`. -/
def flashError (p a o c : Nat) : Int :=
  let h : Int := c / 2
  let e : Int := (((p + a) % c : Nat) : Int) - o
  if e < -h then e + c else if (c : Int) - 1 - h < e then e - c else e

/-- A measurement becomes the pending correction (R145). -/
def measureFlash (p o : Nat) (s : State) : State :=
  let e := flashError p s.cfg.timing.transit o (flashCycle s)
  { s with flash := { s.flash with corr := if e = 0 then none else some e } }

/-- The cycle that begins at a boundary time under a pending correction (R146). -/
def FlashUnit.nextCycle (boundary : Time) (f : FlashUnit) : FlashUnit :=
  match f.corr with
  | none => { f with mode := .running boundary, second := false }
  | some e =>
    if 0 < e then { f with mode := .running (boundary - BitVec.ofNat 32 (min e.toNat 40)), second := false, corr := none }
    else { f with mode := .holding (later boundary (min (-e).toNat 40)), second := false, corr := none }

/-- A correction of which only 40 ms is applied (R146). -/
def FlashUnit.limited (f : FlashUnit) : Bool :=
  match f.corr with
  | none => false
  | some e => 40 < e.natAbs

/-! ### The driver's crossing indicators' drive (R163) -/

/-- A change of an assigned output. -/
def DciUnit.mapOut (u : DciUnit) (f : DciOut → DciOut) : Fin 2 → DciUnit
  | 0 => { u with out0 := u.out0.map f }
  | 1 => { u with out1 := u.out1.map f }

/-- An output. -/
def DciUnit.out (u : DciUnit) : Fin 2 → Option DciOut
  | 0 => u.out0
  | 1 => u.out1

/-- A cycle boundary or half point of the timebase at an output (R163, R164): PROVEN outputs are driven in the first half only. -/
def DciOut.boundary (now : Time) (second : Bool) (o : DciOut) : DciOut :=
  if o.proven && !second then { o with driven := true, litStart := some now } else { o with driven := false, litStart := none }

/-- Both outputs at a boundary. -/
def DciUnit.boundary (now : Time) (second : Bool) (u : DciUnit) : DciUnit :=
  { u with out0 := u.out0.map (DciOut.boundary now second), out1 := u.out1.map (DciOut.boundary now second) }

/-- A half-cycle boundary as the lamps and the indicators take it (R142, R147, R163). -/
def halfBoundary (second : Bool) (s : State) : State :=
  { s with lights := if isPost s then s.lights.driveAll s.clock.ms second AspectRec.boundary else s.lights,
           dci := s.dci.boundary s.clock.ms second }

end Sys2Proof.Machine
end

