-- ==== Sys2Proof/Machine/Indicators.lean ====
section
/-! DEFINITION. The driver's crossing indicators (R161 to R164): their judgement, their pulse, the results of their strings. -/

namespace Sys2Proof.Machine

/-- The sections of an assigned output (R161); none where it is unassigned. -/
def dciSections (tracks : Nat) (e : DciEntry) : List Nat :=
  let k := if e.endB then 2 else 0
  (if e.track0 ∧ 0 < tracks then [k] else []) ++ (if e.track1 ∧ 1 < tracks then [3 + k] else [])

/-- An output as LOADING leaves it (R161). Of two assignments of one own output, an error that leads to declared lockout (R190),
the first serves (log 23). -/
def dciBuild (im : Image) (report : Bool) (out : Fin 2) : Option DciOut :=
  if report then
    match im.dcis.find? fun e => e.station == im.own && e.out == out with
    | none => none
    | some e =>
      if dciSections im.tracks e = [] then none
      else some { sections := dciSections im.tracks e, proven := false, driven := false, litStart := none, lamp := LampString.reset }
  else none

/-- No configured post reports an aspect FAILED, and every one of them is this station or LIVE (R162). -/
def postProven (s : State) (n : Nat) : Bool :=
  if n = s.cfg.own then
    s.barrier.state == .down && s.lights.a0.state != .failed && s.lights.a1.state != .failed && s.lights.a2.state != .failed
  else
    match peerAt s n with
    | none => false
    | some p =>
      p.state == .live && (match p.post with
        | none => false
        | some r => r.barrier == .down && r.amber != .failed && r.red1 != .failed && r.red2 != .failed)

/-- An assigned output is PROVEN (R162). -/
def dciProven (s : State) (o : DciOut) : Bool :=
  s.phase.phase == .closed && (posts s).all (postProven s) && !(s.sections.any fun r => r.held && o.sections.contains r.id)

/-- An output judged (R162, R163): PROVEN in the first half is driven at once, DARK stops at once. -/
def dciJudge (s : State) (o : DciOut) : DciOut :=
  let p := dciProven s o
  if p = o.proven then o
  else if p then
    if s.flash.second then { o with proven := true } else { o with proven := true, driven := true, litStart := some s.clock.ms }
  else { o with proven := false, driven := false, litStart := none }

/-- An output is PROVEN as it stands. -/
def isProven (o : Option DciOut) : Bool := o.any (·.proven)

/-- A pulse goes on for the outputs that are not PROVEN (R164). -/
def DciUnit.trimPulse (u : DciUnit) : DciUnit :=
  match u.pulse with
  | none => u
  | some p =>
    let q := { p with on0 := p.on0 && !isProven u.out0, on1 := p.on1 && !isProven u.out1 }
    { u with pulse := if q.on0 || q.on1 then some q else none }

/-- Both outputs judged. -/
def judgeDcis (s : State) : State :=
  { s with dci := ({ s.dci with out0 := s.dci.out0.map (dciJudge s), out1 := s.dci.out1.map (dciJudge s) }).trimPulse }

/-- The result of an output's string (R164): DCI_FAILED at each entry into OUT, cleared at each return to OK. -/
def dciResult (out : Fin 2) (good : Bool) (s : State) : State :=
  match s.dci.out out with
  | none => s
  | some o =>
    let l := o.lamp.result good
    let s1 := { s with dci := s.dci.mapOut (fun x => { x with lamp := l }) out }
    if l.out = o.lamp.out then s1 else setCond l.out (ownCond s1 .dciFailed out.val) s1

end Sys2Proof.Machine
end

