-- ==== Sys2Proof/Machine/Barrier.lean ====
section
/-! DEFINITION. The barrier (chapter 08, R151 to R159): filters, wanted drive, dead time, travel timer, stall, contact fault, barrier state. -/

namespace Sys2Proof.Machine

/-! ### The 1 ms input filters (R152, R193) -/

/-- A sample that does not change a filtered level (R152): the first sample gives the level, an equal one drops the run, a differing one below the N-th
raises it. None where the sample is the N-th differing one, which is a change of the level. -/
def InputFilter.sample (n : Nat) (x : Bool) (f : InputFilter) : Option InputFilter :=
  match f.level with
  | none => some { level := some x, run := 0 }
  | some l => if l = x then some { f with run := 0 } else if f.run + 1 < n then some { f with run := f.run + 1 } else none

/-- The N-th consecutive differing sample changes the level (R152); none where the run is shorter. -/
def InputFilter.change (n : Nat) (f : InputFilter) : Option InputFilter :=
  match f.level with
  | none => none
  | some l => if n ≤ f.run + 1 then some { level := some !l, run := 0 } else none

/-- The filtered level is made (or active). -/
def InputFilter.made (f : InputFilter) : Bool := f.level == some true

/-! ### Contacts and state (R152, R157) -/

/-- The filter of a contact. -/
def BarrierUnit.contact (b : BarrierUnit) : Contact → InputFilter
  | .up => b.up
  | .down => b.down

/-- The barrier with a contact's filter replaced. -/
def BarrierUnit.putContact (b : BarrierUnit) (f : InputFilter) : Contact → BarrierUnit
  | .up => { b with up := f }
  | .down => { b with down := f }

/-- The barrier is at UP (R152): a contact not yet sampled reads as open (log 26). -/
def BarrierUnit.atUp (b : BarrierUnit) : Bool := b.up.made && !b.down.made

/-- The barrier is at DOWN (R152): a contact not yet sampled reads as open (log 26). -/
def BarrierUnit.atDown (b : BarrierUnit) : Bool := b.down.made && !b.up.made

/-- Both contacts are made. -/
def BarrierUnit.bothMade (b : BarrierUnit) : Bool := b.up.made && b.down.made

/-- The barrier state, the first that applies (R157). While neither output is driven and both contacts are made it is the state before the second
contact, STALLED too where that stall has ended with its drive (log 67). -/
def BarrierUnit.stateNow (b : BarrierUnit) : BarrierState :=
  if b.contactFault then .contactFault
  else if b.stalled then .stalled
  else if b.lowerOn then .lowering
  else if b.raiseOn then .raising
  else if b.atUp then .up
  else if b.atDown then .down
  else if b.bothMade then b.beforeBoth
  else .mid

/-! ### The drive (R153 to R156) -/

/-- LOWER is the wanted drive (R153, R156). -/
def BarrierUnit.wantsLower (b : BarrierUnit) : Bool := b.command == .lower && !b.atDown && !(b.contactFault && b.lowerSpent)

/-- RAISE is the wanted drive (R153). -/
def BarrierUnit.wantsRaise (phase : Phase) (b : BarrierUnit) : Bool :=
  b.command == .raise && phase == .opening && !b.atUp && !b.contactFault

/-- LOWER stops (R154, R155): its stop time is kept, the travel timer and a stall end with the drive. -/
def BarrierUnit.stopLower (now : Time) (b : BarrierUnit) : BarrierUnit :=
  { b with lowerOn := false, lowerStop := now, travelStart := none, stalled := false }

/-- RAISE stops. -/
def BarrierUnit.stopRaise (now : Time) (b : BarrierUnit) : BarrierUnit :=
  { b with raiseOn := false, raiseStop := now, travelStart := none, stalled := false }

/-- LOWER begins where RAISE is undriven and last stopped at least 200 ms ago (R154, R155). -/
def BarrierUnit.beginLower (now : Time) (b : BarrierUnit) : BarrierUnit :=
  if !b.lowerOn && !b.raiseOn && 200 ≤ (now - b.raiseStop).toNat then { b with lowerOn := true, travelStart := some now, stalled := false } else b

/-- RAISE begins where LOWER is undriven and last stopped at least 200 ms ago (R154, R155). -/
def BarrierUnit.beginRaise (now : Time) (b : BarrierUnit) : BarrierUnit :=
  if !b.raiseOn && !b.lowerOn && 200 ≤ (now - b.lowerStop).toNat then { b with raiseOn := true, travelStart := some now, stalled := false } else b

/-- The wanted drive is found and followed (R153, R154). While both contacts are made the barrier is at neither end, so a stalled drive stays applied
(log 56). -/
def BarrierUnit.findDrive (now : Time) (phase : Phase) (b : BarrierUnit) : BarrierUnit :=
  let b1 := if b.lowerOn && !b.wantsLower then b.stopLower now else b
  let b2 := if b1.raiseOn && !b1.wantsRaise phase then b1.stopRaise now else b1
  let b3 := if b2.wantsLower then b2.beginLower now else b2
  if b3.wantsRaise phase then b3.beginRaise now else b3

/-- The light and barrier unit drives, samples and supervises a barrier: at a POST station outside blind lockout, once LOADING has ended (R159, R160;
log 55). -/
def barrierServed (s : State) : Bool := isPost s && !s.join.blind && s.join.state != .loading

/-- The drive and the barrier state are found again; a change of state is handed on (R153, R155, R157, R158). -/
def barrierSettle (s : State) : Work :=
  if barrierServed s then
    let b := s.barrier.findDrive s.clock.ms s.phase.phase
    let st := b.stateNow
    let s1 := { s with barrier := { b with state := st } }
    if st = s.barrier.state then (s1, [])
    else ((if st = .up ∨ st = .down then clearCond (ownCond s1 .barrierStalled 0) s1 else s1), [.judge, .evaluate])
  else (s, [])

/-- A barrier command handed to the unit (R151, R156): a fresh LOWER may drive again in CONTACT_FAULT. A change of the state is counted (R72). -/
def handCommand (c : BarrierCmd) (s : State) : Work :=
  (barrierSettle { s with barrier := { s.barrier with command := c, lowerSpent := if c = .lower then false else s.barrier.lowerSpent } }).andThen
    fun s1 => (countChange (s1.barrier.state != s.barrier.state) s1, [])

/-- The unit after a filtered contact level has been set (R156, R157): both contacts made starts the 500 ms span, exactly one made leaves CONTACT_FAULT;
`first` for a level taken from a first sample, whose span counts from the reset. -/
def contactSet (first : Bool) (before : BarrierUnit) (s : State) : Work :=
  let b := s.barrier
  let b1 :=
    if b.bothMade then
      if before.bothMade then b
      else if first then { b with bothSince := some 0 }
      else { b with bothSince := some s.clock.ms, beforeBoth := before.state }
    else { b with bothSince := none }
  if b1.contactFault && (b1.up.made != b1.down.made) then
    let s1 := { s with barrier := { b1 with contactFault := false, lowerSpent := false } }
    barrierSettle (clearCond (ownCond s1 .barrierContacts 0) s1)
  else barrierSettle { s with barrier := b1 }

end Sys2Proof.Machine
end

