-- ==== Sys2Proof/Machine/Sequencer.lean ====
section
/-! DEFINITION. The sequencer (chapter 07, R125 to R136): walking a step list, and the requests START, HALT and STOP. -/

namespace Sys2Proof.Machine

/-- A run is in progress: RUNNING or HALTING (R127). -/
def SeqUnit.active (q : SeqUnit) : Bool := q.state == .running || q.state == .halting

/-- The head index of a list (R126). -/
def headOf (im : Image) : ListName → Nat
  | .close => im.closeHead
  | .opn => im.openHead
  | .failed => im.failedHead

/-- The step record of the step in progress. -/
def currentStep (s : State) : Option StepRec := s.seq.step.bind fun i => s.cfg.steps[i]?

/-- A wait condition, read on the states as they stand (R130). -/
def waitHolds (s : State) : WaitFor → Bool
  | .none => true
  | .ownDown => s.barrier.state == .down
  | .ownUp => s.barrier.state == .up
  | .allDown => allDown s
  | .allUp => allUp s

/-- The dwell of a step has run (R129). -/
def dwellRun (s : State) (st : StepRec) : Bool := st.dwell ≤ sinceMs s s.seq.stepStart

/-- The barrier command of a step's barrier field; NONE hands nothing (R128, R151). -/
def handField (f : BarrierField) (s : State) : Work :=
  match f with
  | .none => (s, [])
  | .lower => handCommand .lower s
  | .raise => handCommand .raise s
  | .release => handCommand .release s

/-- A step is begun, items 1 to 4 of R128; item 5 is the judgement that follows. -/
def beginStep (i : Nat) (st : StepRec) (s : State) : Work :=
  let s1 := { s with seq := { s.seq with step := some i, stepStart := s.clock.ms, waitStart := none } }
  (handField st.barrier (applyPattern st.amber st.red s1)).andThen fun s2 =>
    if st.barrier = .lower ∧ !s2.seq.lowerReached then ({ s2 with seq := { s2.seq with lowerReached := true } }, [.evaluate]) else (s2, [])

/-- The state in which a run ends (R127). -/
def EndHow.seqState : EndHow → SeqState
  | .done => .done
  | .halted => .halted
  | .stopped => .stopped
  | .error => .error

/-- The sequencer's own record of the end of a run. -/
def SeqUnit.ended (how : EndHow) (q : SeqUnit) : SeqUnit :=
  { q with state := how.seqState, waitStart := none, result := q.list.map fun l => (l, how) }

/-- A run ends DONE, HALTED or ERROR (R129, R131, R133, R136): the result is recorded, SEQUENCE_ERROR follows it, the end is reported. -/
def endRun (how : EndHow) (s : State) : Work :=
  let s1 := { s with seq := s.seq.ended how }
  let s2 := match how with
    | .done => clearCond (ownCond s1 .sequenceError 0) s1
    | .error => raiseCond (ownCond s1 .sequenceError 0) s1
    | .halted | .stopped => s1
  (s2, [.seqEnded how])

/-- The current step is judged, and the walk goes on while steps end (R129). The fuel is one more than a list can hold (R126). -/
def judgeStep : Nat → State → Work
  | 0, s => (s, [])
  | fuel + 1, s =>
    if s.seq.active then
      match currentStep s with
      | none => (s, [])
      | some st =>
        if dwellRun s st then
          if waitHolds s st.waitFor then
            if s.seq.state = .halting then endRun .halted s
            else
              match st.next with
              | none => endRun .done s
              | some j =>
                match s.cfg.steps[j]? with
                | none => (s, [])
                | some st' => (beginStep j st' s).andThen (judgeStep fuel)
          else if s.seq.waitStart.isNone then
            ({ s with seq := { s.seq with waitStart := some (later s.seq.stepStart st.dwell) } }, [])
          else (s, [])
        else (s, [])
    else (s, [])

/-- The longest chain of steps in one event, with one to spare (R126, R129). -/
def walkFuel : Nat := 25

/-- START of a list (R132): refused while a run is in progress. -/
def seqStart (l : ListName) (s : State) : Work :=
  if s.seq.active then (s, [])
  else
    let s1 := { s with seq := { s.seq with state := .running, list := some l, lowerReached := false, result := none } }
    match s.cfg.steps[headOf s.cfg l]? with
    | none => (s1, [])
    | some st => (beginStep (headOf s.cfg l) st s1).andThen (judgeStep walkFuel)

/-- HALT (R133): taken in RUNNING. -/
def seqHalt (s : State) : State := if s.seq.state = .running then { s with seq := { s.seq with state := .halting } } else s

/-- STOP (R134): the run ends at once and RELEASE is handed to the barrier. -/
def seqStop (s : State) : Work :=
  if s.seq.active then (handCommand .release { s with seq := s.seq.ended .stopped }).andThen fun s1 => (s1, [.evaluate]) else (s, [])

end Sys2Proof.Machine
end

