-- ==== Sys2Proof/Machine/Phase.lean ====
section
/-! DEFINITION. The phase unit (chapter 06, R105 to R124) with its link to the sequencer (R137 to R139), and the handling of one event's signals
(R106). -/

namespace Sys2Proof.Machine

/-! ### Demands (R107, R108) -/

/-- The causes of failure demand that name a condition, in rank order (R107). -/
def failureCauses (s : State) : List CondId :=
  ((s.peers.filter fun p => p.state == .mismatched).map fun p => condOf .layoutMismatch p.station 0)
    ++ ((s.peers.filter fun p => p.state == .unheard || p.state == .hailing || p.state == .stale).map fun p => condOf .peerLost p.station 0)
    ++ ((s.sections.filter fun r => r.state == .unknown).map fun r => condOf .sectionUnknown r.id 0)
    ++ ((s.sections.filter fun r => r.state == .disturbed).map fun r => condOf .sectionDisturbed r.id 0)

/-- Failure demand (R107). -/
def failureDemand (s : State) : Bool := s.join.state != .joined || !(failureCauses s).isEmpty

/-- The highest-ranked of a list of conditions (R173). -/
def highestCond : List CondId → Option CondId
  | [] => none
  | c :: rest =>
    match highestCond rest with
    | none => some c
    | some d => if d.rank < c.rank then some d else some c

/-- The failure cause of the moment (R107). -/
def failureCause (s : State) : Option CondId := highestCond (failureCauses s)

/-- A section gives closing demand (R108). A reached deadline demands from the time at which it is reached, whether or not its expiry has been reported
yet (log 76). -/
def Sect.demands (now : Time) (r : Sect) : Bool :=
  if r.isApproach then
    r.state == .restoring || (r.approaching && !r.held && (match r.deadline with
      | none => true
      | some d => reached now d))
  else r.state != .clear

/-- Closing demand (R108). -/
def closingDemand (s : State) : Bool := s.sections.any fun r => r.demands s.clock.ms

/-- Every island section is CLEAR. -/
def islandsClear (s : State) : Bool := s.sections.all fun r => r.isApproach || r.state == .clear

/-- An approaching section's deadline lies within the minimum open time (R118). -/
def Sect.deadlineNear (now : Time) (minOpen : Nat) (r : Sect) : Bool :=
  r.approaching && !r.held && (match r.deadline with
    | none => false
    | some d => reached (later now minOpen) d)

/-- The second-train rule holds the crossing CLOSED (R118). -/
def secondTrain (s : State) : Bool := s.sections.any fun r => r.deadlineNear s.clock.ms s.cfg.timing.minOpen

/-- Every configured post but this station reports the phase OPENING or OPEN (R116, R117). -/
def othersOpening (s : State) : Bool :=
  ((posts s).filter (· ≠ s.cfg.own)).all fun n => postPhase s n == some .opening || postPhase s n == some .opened

/-- Some configured post is another station. -/
def otherPosts (s : State) : Bool := (posts s).any (· ≠ s.cfg.own)

/-- The openings are complete (R122). -/
def openingsComplete (s : State) : Bool :=
  if isPost s then s.seq.state == .done && s.seq.result == some (.opn, .done) && allUp s
  else (posts s).all fun n => postBarrier s n == some .up && postPhase s n == some .opened

/-! ### The transition rules (R109 to R123) -/

/-- What an evaluation finds to do. -/
inductive PhaseAct where
  | stay
  | halt
  | move (p : Phase)
deriving DecidableEq, Repr

/-- CLOSING with no closing demand at a POST station (R115, R116). -/
def closingAtPost (s : State) : PhaseAct :=
  if s.phase.haltPending then .stay
  else if s.seq.list = some .close ∧ s.seq.lowerReached then
    if otherPosts s ∧ othersOpening s then .move .opening else .stay
  else if s.seq.state = .running then .halt
  else .move .opening

/-- The transition table. -/
def phaseAct (s : State) : PhaseAct :=
  match s.phase.phase with
  | .starting => .stay
  | .failed =>
    if failureDemand s then .stay
    else if closingDemand s then (if allDown s then .move .closed else .move .closing)
    else .move .opening
  | .opened => if failureDemand s then .move .failed else if closingDemand s then .move .closing else .stay
  | .opening =>
    if failureDemand s then .move .failed
    else if closingDemand s then .move .closing
    else if openingsComplete s then .move .opened
    else .stay
  | .closed =>
    if failureDemand s then .move .failed
    else if closingDemand s then .stay
    else if secondTrain s then .stay
    else .move .opening
  | .closing =>
    if failureDemand s then .move .failed
    else if allDown s then .move .closed
    else if closingDemand s then .stay
    else if isPost s then closingAtPost s
    else if othersOpening s then .move .opening
    else .stay

/-! ### Moves (R106, R111, R119, R124, R137) -/

/-- The phase unit's own timers and marks at a move (R105, R119, R120). -/
def PhaseUnit.enter (now : Time) (islands : Bool) (p : Phase) (u : PhaseUnit) : PhaseUnit :=
  { u with phase := p, closedEntry := if p = .closed then some now else none,
           releaseStart := if p = .closed ∧ islands then some now else none, releaseExpired := false, haltPending := false, standing := [] }

/-- The stations set in the LIVE mask (R184). -/
def liveMask (s : State) : List Nat :=
  (List.range 16).filter fun n => n == s.cfg.own || s.peers.any fun p => p.station == n && p.state == .live

/-- The first-fault trigger (R124, R185): it fills an empty record; the fields that follow the whole event are taken again at its end. -/
def firstFaultTrigger (before : Phase) (s : State) : State :=
  match s.firstFault with
  | some _ => s
  | none =>
    { s with firstFault := some { time := s.clock.ms, restartCount := s.restartCount, cause := failureCause s, before := before,
                                  sections := s.sections.map (·.state), live := liveMask s, condCount := s.conds.length } }

/-- The wanted list of a phase (R137). -/
def wantedList : Phase → Option ListName
  | .closing => some .close
  | .opening => some .opn
  | .failed => some .failed
  | .starting | .opened | .closed => none

/-- The state with the deferred list set. -/
def defer (l : Option ListName) (s : State) : State := { s with phase := { s.phase with deferred := l } }

/-- The requests at the entry into a phase (R137). -/
def seqRequests (s : State) : Work :=
  if isPost s then
    match wantedList s.phase.phase with
    | none => (defer none s, [])
    | some w =>
      if !s.seq.active then seqStart w (defer none s)
      else if s.seq.state = .running ∧ s.seq.list = some w then (defer none s, [])
      else if s.seq.list = some .close ∧ w = .failed then (defer (some .failed) s, [])
      else if s.seq.state = .halting ∧ s.seq.list = some .close ∧ w = .close then (defer (some .close) s, [])
      else (seqStop (defer none s)).andThen (seqStart w)
  else (s, [])

/-- The outputs judged in the phase entered, which the event may leave again (R162, R164). -/
def judgePassing (s : State) : Work := (judgeDcis s, [])

/-- A move of the phase, handed on in the order of R106; the barrier drive is found again at the phase change (R153). -/
def movePhase (p : Phase) (s : State) : Work :=
  let before := s.phase.phase
  let s1 := countChange true { s with phase := s.phase.enter s.clock.ms (islandsClear s) p }
  let s2 := if p = .failed then firstFaultTrigger before s1 else s1
  ((barrierSettle s2).andThen seqRequests).andThen judgePassing

/-! ### The release (R119 to R121) -/

/-- The release timer follows the islands while CLOSED (R119). -/
def releaseUpkeep (s : State) : State :=
  if s.phase.phase ≠ .closed then s
  else if islandsClear s then
    if s.phase.releaseStart.isNone ∧ !s.phase.releaseExpired then { s with phase := { s.phase with releaseStart := some s.clock.ms } } else s
  else { s with phase := { s.phase with releaseStart := none, releaseExpired := false, standing := [] } }

/-- The moment at which a section comes to stand: its deadline plus the target warning time (R120). -/
def Sect.standsAt (warning : Nat) (r : Sect) : Option Time := r.deadline.map fun d => later d warning

/-- A demanding section is a standing one (R120). -/
def Sect.standing (now : Time) (warning : Nat) (r : Sect) : Bool :=
  r.approaching && !r.held && (match r.standsAt warning with
    | none => false
    | some t => reached now t)

/-- The sources of closing demand. -/
def demanding (s : State) : List Sect := s.sections.filter fun r => r.demands s.clock.ms

/-- The release test is to be made (R120). -/
def releaseTested (s : State) : Bool := s.phase.phase == .closed && s.phase.releaseExpired && islandsClear s && !(demanding s).isEmpty

/-- The release is made: every source is standing (R120). -/
def releaseHolds (s : State) : Bool := releaseTested s && (demanding s).all fun r => r.standing s.clock.ms s.cfg.timing.warningTime

/-- The held flag of one section is set at the phase unit's request, LONG_CLOSURE raised and the section added to the held-by-release set (R58, R121). -/
def releaseOne (s : State) (id : Nat) : State :=
  let s1 := raiseCond (condOf .longClosure id 0) (mapSect id Sect.hold s)
  { s1 with phase := { s1.phase with heldByRelease := s1.phase.heldByRelease ++ [id] } }

/-- The release (R120). -/
def makeRelease (s : State) : State := ((demanding s).map (·.id)).foldl releaseOne s

/-- A standing-test time set for a section, in place of the one it had. -/
def PhaseUnit.putStanding (sec : Nat) (t : Time) (u : PhaseUnit) : PhaseUnit :=
  { u with standing := u.standing.filter (fun e => e.1 ≠ sec) ++ [(sec, t)] }

/-- Where the test fails only because approaching sections are not yet standing, their standing-test times are set (R120). -/
def noteStanding (s : State) : State :=
  if releaseTested s ∧ (demanding s).all (fun r => r.approaching && !r.held) then
    (demanding s).foldl (fun w r =>
      match r.standsAt s.cfg.timing.warningTime with
      | none => w
      | some t => if reached s.clock.ms t then w else { w with phase := w.phase.putStanding r.id t }) s
  else s

/-! ### Evaluation and the event's signals (R106) -/

/-- An evaluation: the release test, then at most one move; each move and each release is evaluated again at once (R106, R120). -/
def evaluate : Nat → State → Work
  | 0, s => (s, [])
  | fuel + 1, s =>
    let s1 := releaseUpkeep s
    if releaseHolds s1 then evaluate fuel (makeRelease s1)
    else
      let s2 := noteStanding s1
      match phaseAct s2 with
      | .stay => (s2, [])
      | .halt => ({ seqHalt s2 with phase := { s2.phase with haltPending := true } }, [])
      | .move p => (movePhase p s2).andThen (evaluate fuel)

/-- The longest chain of moves that one event is given (log 25). -/
def moveFuel : Nat := 16

/-- The end of a run that a HALT asked for, taken with halt pending set (R115, R139): without closing demand the evaluation opens, with it CLOSE starts
again. -/
def haltedEnd (s : State) : Work :=
  (evaluate moveFuel { s with phase := { s.phase with haltPending := false } }).andThen fun s1 =>
    if s1.phase.phase = .closing ∧ closingDemand s1 ∧ !s1.seq.active then seqStart .close s1 else (s1, [])

/-- The end of any other run (R138): the phase is evaluated with it, and the deferred list starts where no move has taken its place. -/
def otherEnd (s : State) : Work :=
  (evaluate moveFuel s).andThen fun s1 =>
    match s1.phase.deferred with
    | some l => if s1.seq.active then (s1, []) else seqStart l (defer none s1)
    | none => (s1, [])

/-- A signal handled. -/
def handleSig : Sig → State → Work
  | .evaluate, s => evaluate moveFuel s
  | .judge, s => judgeStep walkFuel s
  | .enteredJoined, s => if s.phase.phase = .starting then (movePhase .failed s).andThen (evaluate moveFuel) else (s, [])
  | .seqEnded how, s =>
    match how with
    | .halted | .error => if s.phase.haltPending then haltedEnd s else otherEnd s
    | .done | .stopped => otherEnd s

/-- The signals of one event handled one after the other until none is left (log 25); a report that a walk gives is taken once the walk has ended
(log 53). -/
def drain : Nat → List Sig → State → State
  | 0, _, s => s
  | _ + 1, [], s => s
  | fuel + 1, sig :: rest, s =>
    let w := handleSig sig s
    drain fuel (rest ++ w.2) w.1

/-- The fuel of one event's signals (log 25). -/
def drainFuel : Nat := 1024

end Sys2Proof.Machine
end

