-- ==== Sys2Proof/Machine/Line.lean ====
section
/-! DEFINITION. The line controller (chapter 04): the transmit queue, line access, an attempt from its start to its end, STATUS timing, line health. -/

namespace Sys2Proof.Machine

/-! ### Keys, classes and admission (R64, R69 to R71) -/

/-- The keys of the transmit queue (R69). -/
inductive TxKey where
  | strike (slot : Slot)
  | status
  | join
  | service (sec : Nat)
deriving DecidableEq, Repr

/-- The key of a request. -/
def TxWhat.key : TxWhat → TxKey
  | .strike slot => .strike slot
  | .status => .status
  | .hail => .join
  | .answer _ => .join
  | .order sec _ _ => .service sec

/-- The frame kind of a request. -/
def TxWhat.kind : TxWhat → FrameKind
  | .strike _ => .strike
  | .status => .status
  | .hail | .answer _ => .join
  | .order _ _ _ => .service

/-- The rank of a frame class; its class base is 16 slots for each (R64, R70). -/
def FrameKind.classRank : FrameKind → Nat
  | .strike => 0
  | .service => 1
  | .join => 2
  | .status => 3

/-- The holdoff of a class at a station, in microseconds (R64). -/
def holdoffUs (k : FrameKind) (station : Nat) : Nat := (16 * k.classRank + station) * 150

/-- What the queue takes in a join state (R71); in blind lockout the line controller does not start (R190). -/
def admits (j : JoinUnit) (w : TxWhat) : Bool :=
  match j.state with
  | .loading => false
  | .calibrating | .hailing => w.kind == .join
  | .joined => true
  | .lockedOut => w == .hail && !j.blind

/-- A queued frame of a key. -/
def queuedUnder (q : List TxItem) (k : TxKey) : Option TxItem := q.find? fun i => i.what.key == k

/-- The line controller with another queue. -/
def putQueue (q : List TxItem) (s : State) : State := { s with line := { s.line with queue := q } }

/-- A newly queued frame at the end of the queue (R67, R70). -/
def enqueue (w : TxWhat) (s : State) : State :=
  { s with line := { s.line with queue := s.line.queue ++ [{ what := w, attempts := 0, seq := none, ord := s.line.nextOrd, queuedAt := s.clock.us }],
                                 nextOrd := s.line.nextOrd + 1 } }

/-- The queued SERVICE frames. -/
def services (q : List TxItem) : List TxItem := q.filter fun i => i.what.kind == .service

/-- The item queued earliest of a list. -/
def oldest : List TxItem → Option TxItem
  | [] => none
  | x :: rest => match oldest rest with
    | none => some x
    | some y => if y.ord < x.ord then some y else some x

/-- A frame requested (R69): a frame queued under its key is replaced in place, keeping place and attempt count; a SERVICE frame with both places taken
drops the older and raises TX_BLOCKED. -/
def request (w : TxWhat) (s : State) : State :=
  if admits s.join w then
    match queuedUnder s.line.queue w.key with
    | some _ => putQueue (s.line.queue.map fun i => if i.what.key = w.key then { i with what := w, seq := none } else i) s
    | none =>
      if w.kind = .service ∧ 2 ≤ (services s.line.queue).length then
        match oldest (services s.line.queue) with
        | none => enqueue w s
        | some o => raiseCond (ownCond s .txBlocked 0) (enqueue w (putQueue (s.line.queue.filter fun i => i.ord ≠ o.ord) s))
      else enqueue w s
  else s

/-- Whether one queued frame goes before another (R70). -/
def TxItem.before (x y : TxItem) : Bool :=
  let rx := x.what.kind.classRank
  let ry := y.what.kind.classRank
  rx < ry || (rx == ry && (
    match x.what, y.what with
    | .strike i, .strike j => if x.queuedAt = y.queuedAt then i.val < j.val else x.ord < y.ord
    | _, _ => x.ord < y.ord))

/-- The next frame to send (R70). -/
def chosen : List TxItem → Option TxItem
  | [] => none
  | x :: rest => match chosen rest with
    | none => some x
    | some y => if y.before x then some y else some x

/-! ### Carrier (R63) -/

/-- The record of a line. -/
def lineAt (s : State) : Line → LineRec
  | .a => s.line.a
  | .b => s.line.b

/-- The state with a line's record changed. -/
def mapLine (f : LineRec → LineRec) (l : Line) (s : State) : State :=
  match l with
  | .a => { s with line := { s.line with a := f s.line.a } }
  | .b => { s with line := { s.line with b := f s.line.b } }

/-- The other line. -/
def otherLine : Line → Line
  | .a => .b
  | .b => .a

/-- The station drives a line. -/
def drives (s : State) (l : Line) : Bool :=
  match s.line.flight with
  | none => false
  | some f => match l with
    | .a => f.drivingA
    | .b => f.drivingB

/-- Carrier on a line is heeded: GOOD or QUALIFYING, or both lines FAILED (R63). -/
def heeded (s : State) (l : Line) : Bool := (lineAt s l).health != .failed || (lineAt s (otherLine l)).health == .failed

/-- A line carries carrier as this station sees it (R63). -/
def carried (s : State) (l : Line) : Bool := (lineAt s l).carrier || drives s l

/-- The crossing line is quiet (R63). -/
def lineQuiet (s : State) : Bool := !(heeded s .a && carried s .a) && !(heeded s .b && carried s .b)

/-! ### An attempt (R66, R73, R82 to R85) -/

/-- The remaining delay of a STRIKE (R34): the deadline of the section on the crossing side of the DP, from now. -/
def remainingDelay (s : State) (dp : Nat) : Option Nat :=
  match (sectAt s (crossingSide dp)).bind (·.deadline) with
  | none => none
  | some d => if reached s.clock.ms d then some 0 else some (d - s.clock.ms).toNat

/-- The fields of a STRIKE (R83). -/
def strikeBody (s : State) (u : DpUnit) : StrikeBody :=
  { dp := u.id, inn := u.inn, out := u.out, epoch := u.epoch, speed := u.lastSpeed, delay := remainingDelay s u.id }

/-- An own DP's report (R22). -/
def DpUnit.report (u : DpUnit) : DpReport :=
  { dp := u.id, state := u.state, headsClear := u.headsClear, inn := u.inn, out := u.out, speed := u.lastSpeed }

/-- The reports of the own DPs in order of DP id (R84). -/
def dpReports (s : State) : List DpReport := s.dps.foldl (fun l u => insertRanked (·.dp) u.report l) []

/-- The post report (R84). -/
def postReport (s : State) : PostReport :=
  { barrier := s.barrier.state, amber := s.lights.a0.state, red1 := s.lights.a1.state, red2 := s.lights.a2.state, flash := flashOffset s }

/-- The section summary. -/
def sectionSummary (s : State) : List SectState := s.sections.map (·.state)

/-- The fields of a STATUS (R84). -/
def statusBody (s : State) : StatusBody :=
  { roles := ownRoles s, epoch := s.restartCount, phase := s.phase.phase, digest := s.digest, healthA := s.line.a.health, healthB := s.line.b.health,
    dps := dpReports s, post := if isPost s then some (postReport s) else none, sections := sectionSummary s, conds := condList s,
    condCount := s.conds.length }

/-- The fields of a JOIN (R85). -/
def joinBody (s : State) (dest : Option Nat) : JoinBody := { roles := ownRoles s, digest := s.digest, join := s.join.state, answerTo := dest }

/-- The body of a request, filled in at the start of an attempt (R66). -/
def buildBody (s : State) : TxWhat → Option Body
  | .strike slot => (dpAt s slot).map fun u => .strike (strikeBody s u)
  | .status => some (.status (statusBody s))
  | .hail => some (.join (joinBody s none))
  | .answer n => some (.join (joinBody s (some n)))
  | .order sec kind key => some (.service { sec := sec, kind := kind, key := key })

/-- The sequence number of a kind (R73). -/
def LineUnit.seqOf (u : LineUnit) : FrameKind → Byte
  | .strike => u.seqStrike
  | .status => u.seqStatus
  | .join => u.seqJoin
  | .service => u.seqService

/-- The sequence of a kind risen by one, passing from 255 to 0 (R73). -/
def LineUnit.bumpSeq (u : LineUnit) : FrameKind → LineUnit
  | .strike => { u with seqStrike := u.seqStrike + 1 }
  | .status => { u with seqStatus := u.seqStatus + 1 }
  | .join => { u with seqJoin := u.seqJoin + 1 }
  | .service => { u with seqService := u.seqService + 1 }

/-- The attempt of a queued frame starts on both lines (R66): fields filled in, the sequence assigned at a first attempt, the frame out of the queue. A
STATUS takes every change published so far, so none is held back any longer (R72). -/
def startAttempt (i : TxItem) (s : State) : State :=
  match buildBody s i.what with
  | none => putQueue (s.line.queue.filter fun j => j.ord ≠ i.ord) s
  | some body =>
    let seq := i.seq.getD (s.line.seqOf i.what.kind)
    let u := if i.seq.isNone then s.line.bumpSeq i.what.kind else s.line
    let frame : Frame := { crossing := s.cfg.crossing, source := s.cfg.own, seq := seq, body := body }
    { s with line := { u with queue := u.queue.filter fun j => j.ord ≠ i.ord,
                              heldBack := if i.what = .status then false else u.heldBack,
                              flight := some { item := { i with seq := some seq }, bytes := frame.bytes, startUs := s.clock.us,
                                               startMs := s.clock.ms, drivingA := true, drivingB := true, noRetry := false } } }

/-- The holdoff of a queued frame has run since the end of the idle gap (R64). -/
def holdoffRun (s : State) (i : TxItem) : Bool :=
  match s.line.gapEnd with
  | none => false
  | some g => reached s.clock.us g && holdoffUs i.what.kind s.cfg.own ≤ sinceUs s g

/-- The chosen frame starts where its holdoff has run on a quiet line and no frame is in flight (R64). -/
def contend (s : State) : State :=
  if s.line.flight.isNone ∧ lineQuiet s then
    match chosen s.line.queue with
    | none => s
    | some i => if holdoffRun s i then startAttempt i s else s
  else s

/-- The duration of a frame on the line: ten bits a byte at 38,400 bit/s, in microseconds to the nearest (R63, log 34). -/
def frameUs (bytes : Nat) : Nat := (bytes * 15625 + 30) / 60

/-- The attempt has come to its end: aborted on both lines, or run to the end of the frame (R66). -/
def attemptOver (s : State) (f : Flight) : Bool := (!f.drivingA && !f.drivingB) || frameUs f.bytes.length ≤ sinceUs s f.startUs

/-- A STATUS left the queue at a time (R72). -/
def statusLeft (w : TxWhat) (t : Time) (s : State) : State := if w = .status then { s with line := { s.line with statusLeft := some t } } else s

/-- The line controller with no frame in flight. -/
def endFlight (s : State) : State := { s with line := { s.line with flight := none } }

/-- A frame sent leaves the line controller, and TX_BLOCKED is cleared (R66, R67). -/
def frameSent (f : Flight) (s : State) : State :=
  let s1 := endFlight s
  statusLeft f.item.what f.startMs (clearCond (ownCond s1 .txBlocked 0) s1)

/-- A frame dropped unsent at the retry limit (R67). -/
def frameDropped (f : Flight) (s : State) : State :=
  let s1 := endFlight s
  statusLeft f.item.what s.clock.ms (raiseCond (ownCond s1 .txBlocked 0) s1)

/-- A failed frame that is attempted again: its count passes to a queued frame of its key, or it returns to its place (R67, R68). -/
def frameRetried (f : Flight) (s : State) : State :=
  let n := f.item.attempts + 1
  let s1 := setLatch .txRetrySeen (endFlight s)
  match queuedUnder s1.line.queue f.item.what.key with
  | some _ => putQueue (s1.line.queue.map fun i => if i.what.key = f.item.what.key then { i with attempts := n } else i) s1
  | none => putQueue (s1.line.queue ++ [{ f.item with attempts := n }]) s1

/-- A failed SERVICE frame finds both SERVICE places taken by other sections (R69). -/
def noPlace (f : Flight) (s : State) : Bool :=
  f.item.what.kind == .service && (queuedUnder s.line.queue f.item.what.key).isNone && 2 ≤ (services s.line.queue).length

/-- A failed attempt (R67, R68, R71, log 13); a SERVICE frame that finds no place is dropped as the oldest of three (R69, log 48). A frame that is not
retried still passes its count to a frame queued under its key (R68); else it ends, at the retry limit too without TX_BLOCKED (R71, log 60). -/
def attemptFailed (f : Flight) (s : State) : State :=
  if f.noRetry then
    match queuedUnder s.line.queue f.item.what.key with
    | some _ => frameRetried f s
    | none => endFlight s
  else if 1 ≤ s.cfg.timing.retryLimit ∧ 16 * s.cfg.timing.retryLimit ≤ f.item.attempts + 1 then frameDropped f s
  else if noPlace f s then frameDropped f s
  else frameRetried f s

/-! ### STATUS timing (R72) -/

/-- A STATUS is queued. -/
def statusQueued (s : State) : Bool := (queuedUnder s.line.queue .status).isSome

/-- When the last STATUS left the queue, the one in flight taken as sent (R72, log 11). -/
def statusLeftAt (s : State) : Option Time :=
  match s.line.flight with
  | some f => if f.item.what = .status then some f.startMs else s.line.statusLeft
  | none => s.line.statusLeft

/-- A STATUS is queued by the STATUS timing. -/
def queueStatus (s : State) : State :=
  let s1 := request .status s
  { s1 with line := { s1.line with heldBack := false } }

/-- The published fields whose change asks for a STATUS (R72), with the count of the changes that an event may take back again (R176, log 10). -/
structure Published where
  phase : Phase
  dps : List DpReport
  barrier : BarrierState
  strings : List Bool
  sections : List SectState
  conds : List CondId
  condCount : Nat
  healthA : Health
  healthB : Health
  changes : Nat
deriving DecidableEq, Repr

/-- The published fields as they stand. -/
def published (s : State) : Published :=
  { phase := s.phase.phase, dps := dpReports s, barrier := s.barrier.state,
    strings := [s.lights.a0.main.out, s.lights.a0.second.out, s.lights.a1.main.out, s.lights.a1.second.out, s.lights.a2.main.out,
      s.lights.a2.second.out],
    sections := sectionSummary s, conds := condList s, condCount := s.conds.length, healthA := s.line.a.health, healthB := s.line.b.health,
    changes := s.changes }

/-- A change of a published field asks for a STATUS, at once or at the end of the 40 ms (R72). -/
def askStatus (s : State) : State :=
  if s.join.state = .joined ∧ !statusQueued s then
    match statusLeftAt s with
    | some t => if 40 ≤ sinceMs s t then queueStatus s else { s with line := { s.line with heldBack := true } }
    | none => { s with line := { s.line with heldBack := true } }
  else s

/-! ### Line health (R78 to R81) -/

/-- The latch of a line's drop. -/
def dropLatch : Line → Latch
  | .a => .lineADrop
  | .b => .lineBDrop

/-- The condition of a failed line. -/
def lineCond (s : State) : Line → CondId
  | .a => ownCond s .lineFailed 0
  | .b => ownCond s .lineFailed 1

/-- Entry into FAILED (R80). -/
def lineFails (l : Line) (s : State) : State :=
  let s1 := setLatch (dropLatch l) (mapLine (fun r => { r with health := .failed, history := [], qualifying := 0 }) l s)
  raiseCond (lineCond s1 l) s1

/-- A frame joins a line's history of 16 (R78). -/
def LineRec.push (good : Bool) (r : LineRec) : LineRec := { r with history := (good :: r.history).take 16 }

/-- A framing or CRC failure at a line (R74, R80): a GOOD line fails where its history now holds four failures or more (log 52). -/
def lineCrcFailure (l : Line) (s : State) : State :=
  let s1 := mapLine (LineRec.push false) l (setLatch .crcSeen s)
  match (lineAt s1 l).health with
  | .good => if 4 ≤ ((lineAt s1 l).history.filter (! ·)).length then lineFails l s1 else s1
  | .qualifying => lineFails l s1
  | .failed => s1

/-- The silence of a line against traffic on the other (R79). -/
def silent (s : State) (l : Line) : Bool :=
  (lineAt s l).health != .failed && s.cfg.timing.silenceLimit ≤ sinceMs s (lineAt s l).lastValid
    && sinceMs s (lineAt s (otherLine l)).lastValid < s.cfg.timing.silenceLimit

/-- A valid frame counts towards qualification (R81). -/
def LineRec.qualify (r : LineRec) : LineRec :=
  match r.health with
  | .failed => { r with health := .qualifying, qualifying := 1 }
  | .qualifying => if 8 ≤ r.qualifying + 1 then { r with health := .good, qualifying := r.qualifying + 1 } else { r with qualifying := r.qualifying + 1 }
  | .good => r

/-- A valid frame at a line (R74, R79, R81). -/
def lineValid (l : Line) (s : State) : State :=
  let s1 := mapLine (fun r => (({ r with lastValid := s.clock.ms }).push true).qualify) l s
  let s2 := if (lineAt s l).health ≠ .good ∧ (lineAt s1 l).health = .good then clearCond (lineCond s1 l) s1 else s1
  if silent s2 (otherLine l) then lineFails (otherLine l) s2 else s2

end Sys2Proof.Machine
end

