-- ==== Sys2Proof/Machine/Signaller.lean ====
section
/-! DEFINITION. The signaller line (R165 to R171, R182, R183). -/

namespace Sys2Proof.Machine

/-! ### The transmitter (R165 to R168) -/

/-- The entry is unacknowledged: RAISED or CLEARED (R166). -/
def Notice.unacked (n : Notice) : Bool := n.state == .raised || n.state == .cleared

/-- The class of the first of a list in list order, which is the lowest (R166). -/
def firstClass (l : List Notice) : Option Nat := l.head?.map fun n => n.id.kind.cls

/-- The fields of an INDICATION (R166). -/
def indicationFields (s : State) : IndicationFields :=
  { crossing := s.cfg.crossing, phase := s.phase.phase, dci0 := s.dci.out0, dci1 := s.dci.out1,
    unacked := firstClass (s.notices.entries.filter Notice.unacked), highest := firstClass s.notices.entries,
    count := s.notices.entries.length, saturated := s.notices.saturated }

/-- The state with the transmitter changed. -/
def putSig (u : SigUnit) (s : State) : State := { s with sig := u }

/-- An INDICATION starts and the due mark is cleared (R165, R166). -/
def startIndication (s : State) : State :=
  putSig { s.sig with flight := some { what := .indication, bytes := (indicationFields s).bytes, startUs := s.clock.us }, dueMark := false } s

/-- The entry that the notice arbiter chooses (R167). -/
def noticeChosen (s : State) : Option Notice := s.notices.entries.find? (·.pend)

/-- A NOTICE starts, and its entry's change-pending mark is cleared (R167). -/
def startNotice (n : Notice) (s : State) : State :=
  putSig { s.sig with flight := some { what := .notice n.id n.state, bytes := noticeBytes n.id n.state, startUs := s.clock.us } }
    { s with notices := s.notices.mapEntry n.id fun e => { e with pend := false } }

/-- 200 ms have passed since the last end time, or there is none (R165). -/
def noticeSpaced (s : State) : Bool :=
  match s.sig.lastEnd with
  | none => true
  | some t => 200 ≤ sinceMs s t

/-- The INDICATION due time has been reached (R165). -/
def indicationReached (s : State) : Bool :=
  match s.sig.due with
  | none => false
  | some t => reached s.clock.ms t

/-- The transmitter as arbiter (R165): with no frame in flight a due INDICATION starts at once; else a change-pending entry's NOTICE where the spacing has
passed and no INDICATION falls due at the same moment. -/
def transmit (s : State) : State :=
  if s.sig.started ∧ s.sig.flight = none then
    if s.sig.dueMark then startIndication s
    else if noticeSpaced s ∧ !indicationReached s then
      match noticeChosen s with
      | none => s
      | some n => startNotice n s
    else s
  else s

/-- The duration of a frame on the signaller line: 1,042 us a byte (09, "The signaller line"; log 34). -/
def sigUs (bytes : Nat) : Nat := bytes * 1042

/-! ### The notice list and the box (R168, R170, R171, R181 to R183) -/

/-- The room that a departure has made is filled with the present pairs that have no entry, INFO left aside (R183). -/
def NoticeUnit.refill (u : NoticeUnit) : NoticeUnit :=
  (u.present.filter fun c => c.kind.cls ≠ 3 && !hasNotice u.entries c).foldl (fun v c =>
    if v.entries.length < 16 then { v with entries := insertRanked (fun n => n.id.rank) (Notice.fresh c) v.entries } else v) u

/-- The saturated flag is cleared where the list holds 12 entries or fewer (R183). -/
def NoticeUnit.unsaturate (u : NoticeUnit) : NoticeUnit := if u.entries.length ≤ 12 then { u with saturated := false } else u

/-- An entry leaves the list (R182, R183). -/
def NoticeUnit.remove (c : CondId) (u : NoticeUnit) : NoticeUnit :=
  ({ u with entries := u.entries.filter fun n => n.id ≠ c }).unsaturate.refill

/-- A sent report (R168, R182). -/
def NoticeUnit.sent (c : CondId) (st : NoticeState) (u : NoticeUnit) : NoticeUnit :=
  match u.entries.find? fun n => n.id == c with
  | none => u
  | some n =>
    if n.state ≠ st ∨ n.pend then u
    else if n.state = .gone then u.remove c
    else if c.kind.cls = 3 then u.mapEntry c fun e => { e with state := .gone, pend := true }
    else u

/-- An entry under ACK (R170). -/
def Notice.ack (n : Notice) : Notice :=
  match n.state with
  | .raised => { n with state := .acked, pend := true }
  | .cleared => { n with state := .gone, pend := true }
  | .acked | .gone => n

/-- ACK of one class (R170). -/
def NoticeUnit.ackClass (cls : Nat) (u : NoticeUnit) : NoticeUnit :=
  { u with entries := u.entries.map fun n => if n.id.kind.cls = cls then n.ack else n }

/-- QUERY (R171). -/
def NoticeUnit.query (u : NoticeUnit) : NoticeUnit := { u with entries := u.entries.map fun n => { n with pend := true } }

end Sys2Proof.Machine
end

