-- ==== Sys2Proof/Machine/Event.lean ====
section
/-! DEFINITION. The handling of one event (95): a block's own work, then the signals it has given, then what every event is watched for: the flash leader,
the first-fault record, the indicators, the STATUS timing, the line's quiet and the signaller-line transmitter. -/

namespace Sys2Proof.Machine

/-! ### What the phase unit and the line watch (R72, R106; log 10) -/

/-- What the phase unit evaluates a change of in a section record (R106). -/
def Sect.watched (r : Sect) : SectState × Option Tag × Option Time × Bool := (r.state, r.tag, r.deadline, r.held)

/-- A post report without its flash offset (R106). -/
def PostReport.still (p : PostReport) : BarrierState × AspectState × AspectState × AspectState := (p.barrier, p.amber, p.red1, p.red2)

/-- What the phase unit evaluates a change of in a peer entry (R106). -/
def Peer.watched (p : Peer) : PeerState × Option Phase × Option (BarrierState × AspectState × AspectState × AspectState) :=
  (p.state, p.phase, p.post.map PostReport.still)

/-- Some section record or peer entry has changed in what the phase unit watches (R106). -/
def phaseInputsChanged (s0 s1 : State) : Bool :=
  s0.sections.map Sect.watched != s1.sections.map Sect.watched || s0.peers.map Peer.watched != s1.peers.map Peer.watched

/-! ### The end of an event -/

/-- The first-fault record filled in this event takes its section states, LIVE mask and condition count now (R185). -/
def completeFirstFault (s0 s1 : State) : State :=
  match s0.firstFault, s1.firstFault with
  | none, some r =>
    { s1 with firstFault := some { r with sections := sectionSummary s1, live := liveMask s1, condCount := s1.conds.length } }
  | _, _ => s1

/-- The line's quiet followed (R63, R64): carrier ends it, and its return is the end of carrier. -/
def followQuiet (s : State) : State :=
  if s.line.rxOn then
    if lineQuiet s then
      if s.line.quietSince.isNone then { s with line := { s.line with quietSince := some s.clock.us } } else s
    else { s with line := { s.line with quietSince := none, gapEnd := none } }
  else s

/-- A frame that has become ready, or a line controller that has become free, after the idle gap has ended (R64). -/
def readyNow (s0 s1 : State) : Bool :=
  s0.line.gapEnd.isSome && (s1.line.queue != s0.line.queue || (s0.line.flight.isSome && s1.line.flight.isNone))

/-- The frame of an attempt that the conclusion starts ends the line's quiet at once (R63, R64). -/
def contendNow (s : State) : State := followQuiet (contend s)

/-- What every event is watched for, in order. -/
def conclude (s0 s1 : State) : State :=
  let s2 := judgeDcis (completeFirstFault s0 (chooseLeader s1))
  let s3 := if s0.join.state = .joined ∧ published s0 ≠ published s2 then askStatus s2 else s2
  let s4 := followQuiet s3
  let s5 := if readyNow s0 s4 then contendNow s4 else s4
  transmit s5

/-- One event: its own work, its signals, its conclusion. -/
def event (dt : Nat) (s : State) (f : State → Work) : State :=
  let s0 := advance dt s
  if s0.powered then
    let w := f s0
    conclude s0 (drain drainFuel (w.2 ++ if phaseInputsChanged s0 w.1 then [.evaluate] else []) w.1)
  else s0

/-- Work that gives no signals of its own. -/
def plain (f : State → State) : State → Work := fun s => (f s, [])

/-- Work done where its event has come about (log 2). -/
def guarded (c : State → Bool) (f : State → Work) : State → Work := fun s => if c s then f s else (s, [])

end Sys2Proof.Machine
end

