-- ==== Sys2Proof/Machine/BarrierEvents.lean ====
section
/-! DEFINITION. The commands of the barrier and of the 1 ms inputs (R152 to R157, R193). -/

namespace Sys2Proof.Machine

/-- CONTACT_CHANGE (R152): the N-th consecutive differing sample of a contact. -/
def execContactChange (dt : Nat) (contact : Contact) (s : State) : Host.Outcome State Fault Refusal :=
  .next (event dt s (guarded barrierServed fun s =>
    match (s.barrier.contact contact).change s.cfg.timing.filterLength with
    | none => (s, [])
    | some f => contactSet false s.barrier { s with barrier := s.barrier.putContact f contact }))

/-- A sample of a contact in its filter; the first one sets the level (R152). -/
def contactSample (c : Contact) (x : Bool) (s : State) : Work :=
  match (s.barrier.contact c).sample s.cfg.timing.filterLength x with
  | none => (s, [])
  | some f =>
    let s1 := { s with barrier := s.barrier.putContact f c }
    if (s.barrier.contact c).level.isNone then contactSet true s.barrier s1 else (s1, [])

/-- A sample of the key input in its filter (R193). -/
def keySample (x : Bool) (s : State) : State :=
  match s.key.sample s.cfg.timing.filterLength x with
  | none => s
  | some f => { s with key := f }

/-- CONTACT_SAMPLE (R152, R193): a sample that does not change a filtered level. -/
def execContactSample (dt : Nat) (input : FieldInput) (level : Bool) (s : State) : Host.Outcome State Fault Refusal :=
  .next (event dt s (match input with
    | .contact c => guarded barrierServed (contactSample c level)
    | .key => plain (keySample level)))

/-- KEY_INPUT_CHANGE (R193). -/
def execKeyInputChange (dt : Nat) (s : State) : Host.Outcome State Fault Refusal :=
  .next (event dt s (plain fun s => match s.key.change s.cfg.timing.filterLength with
    | none => s
    | some f => { s with key := f }))

/-- DEAD_TIME_END (R154): a wanted drive that has waited begins where it is still wanted. -/
def execDeadTimeEnd (dt : Nat) (s : State) : Host.Outcome State Fault Refusal := .next (event dt s barrierSettle)

/-- The travel timer has run out with its output still driven (R155). -/
def travelOver (s : State) : Bool :=
  barrierServed s && (s.barrier.lowerOn || s.barrier.raiseOn) && !s.barrier.stalled
    && ranFor s s.barrier.travelStart (s.cfg.timing.travelTimeout * 1000)

/-- The travel timer runs out (R155, R156): the barrier stalls, or in CONTACT_FAULT LOWER stops. -/
def travelEnd (s : State) : Work :=
  if s.barrier.contactFault then barrierSettle { s with barrier := { s.barrier with lowerSpent := true } }
  else
    let s1 := { s with barrier := { s.barrier with stalled := true } }
    barrierSettle (raiseCond (ownCond s1 .barrierStalled 0) s1)

/-- TRAVEL_TIMEOUT (R155, R156). -/
def execTravelTimeout (dt : Nat) (s : State) : Host.Outcome State Fault Refusal := .next (event dt s (guarded travelOver travelEnd))

/-- Both contacts have been made for more than 500 ms (R156). -/
def bothTooLong (s : State) : Bool :=
  barrierServed s && s.barrier.bothMade && !s.barrier.contactFault && s.barrier.bothSince.any fun t => 500 < sinceMs s t

/-- Entry into CONTACT_FAULT (R156; log 37): a drive whose travel timer has run out already has had its one travel timeout. -/
def contactFaultEntry (s : State) : Work :=
  let s1 := { s with barrier := { s.barrier with contactFault := true, lowerSpent := s.barrier.stalled, stalled := false } }
  barrierSettle (raiseCond (ownCond s1 .barrierContacts 0) s1)

/-- CONTACT_FAULT_TIMEOUT (R156). -/
def execContactFaultTimeout (dt : Nat) (s : State) : Host.Outcome State Fault Refusal :=
  .next (event dt s (guarded bothTooLong contactFaultEntry))

end Sys2Proof.Machine
end

