-- ==== Sys2Proof/Machine/Joining.lean ====
section
/-! DEFINITION. The join exchange (R86 to R92), the states of the peer table (R93 to R98), and the commands of joining and ageing: HAIL_TIMER,
JOIN_WINDOW_END, PEER_AGE_TIMEOUT, AGREEMENT_TOLERANCE_REACHED, LOCKOUT_LOWER_TIMER. -/

namespace Sys2Proof.Machine

/-! ### Peer states (R95 to R98, R102) -/

/-- A peer entry as the table is set up (R93). -/
def Peer.unheard (e : StationEntry) : Peer :=
  { station := e.number, roles := e.roles, state := .unheard, lastHeard := none, lastStatus := none, age := none, epoch := none, lastSeq := none,
    joinShown := none, phase := none, post := none, dps := [], sections := none, conds := [], condCount := 0, seenA := false, seenB := false,
    stickyPhase := false, stickySections := false, stickyHealth := false, mismatchSince := none, tolerancePassed := false }

/-- An entry with no mismatch since (R97, R102). -/
def Peer.forgetMismatch (p : Peer) : Peer := { p with mismatchSince := none, tolerancePassed := false }

/-- A peer entry's change of state with the conditions that follow it (R94, R95, R97, R98, R102) and the loss of an owner (R54, R96). The conditions of
the state left are cleared before that of the state entered is raised (log 69). -/
def setPeerState (n : Nat) (st : PeerState) (s : State) : State :=
  match peerAt s n with
  | none => s
  | some p =>
    if p.state = st then s
    else
      let p1 := { p with state := st }
      let p2 := if p.state = .live ∨ st = .mismatched then p1.forgetMismatch else p1
      let s1 := putPeer p2 s
      let s2 := if p.state = .stale then clearCond (condOf .peerLost n 0) s1 else s1
      let s3 := if p.state = .mismatched then clearCond (condOf .layoutMismatch n 0) s2 else s2
      let s4 := if p.state = .live then clearCond (condOf .peerDisagrees n 0) s3 else s3
      let s5 := if st = .stale then raiseCond (condOf .peerLost n 0) s4 else s4
      let s6 := if st = .mismatched then raiseCond (condOf .layoutMismatch n 0) s5 else s5
      if p.state = .live then loseOwner n s6 else s6

/-- A change of one peer entry. -/
def mapPeer (n : Nat) (f : Peer → Peer) (s : State) : State := { s with peers := s.peers.map fun p => if p.station = n then f p else p }

/-- The peer timeout (R98). -/
def peerTimeout (s : State) : Nat := s.cfg.timing.statusPeriod * s.cfg.timing.timeoutFactor

/-! ### The join (R86 to R92) -/

/-- A verdict set, while the record is kept (R90). -/
def setVerdict (n : Nat) (v : Verdict) (s : State) : State :=
  if s.join.state = .calibrating ∨ s.join.state = .hailing then
    { s with join := { s.join with verdicts := s.join.verdicts.map fun e => if e.1 = n then (n, v) else e } }
  else s

/-- How many verdicts are a given one. -/
def countVerdicts (v : Verdict) (s : State) : Nat := (s.join.verdicts.filter fun e => e.2 = v).length

/-- The majority test passes (R91). -/
def majorityPasses (s : State) : Bool :=
  !(1 ≤ countVerdicts .different s && countVerdicts .equal s + 1 ≤ countVerdicts .different s)

/-- The state with its join unit changed. -/
def putJoin (f : JoinUnit → JoinUnit) (s : State) : State := { s with join := f s.join }

/-- Entry into HAILING (R88): the join window starts, a HAIL is asked for at once and every 200 ms after. -/
def enterHailing (s : State) : State :=
  request .hail (putJoin (fun j => { j with state := .hailing, windowStart := some s.clock.ms, nextHail := later s.clock.ms 200 }) s)

/-- CALIBRATING is left when the START sweep of every own DP has ended (R87). -/
def leaveCalibrating (s : State) : State :=
  if s.join.state = .calibrating ∧ !(s.dps.any fun u => u.sweep.any fun w => w.kind == .start) then enterHailing s else s

/-- Entry into JOINED (R91): UNHEARD peers become STALE, a STATUS is queued, the phase leaves STARTING. -/
def enterJoined (s : State) : Work :=
  let s1 := putJoin (fun j => { j with state := .joined, windowStart := none }) s
  let s2 := ((s1.peers.filter fun p => p.state == .unheard).map (·.station)).foldl (fun w n => setPeerState n .stale w) s1
  (queueStatus s2, [.enteredJoined])

/-- Entry into LOCKED_OUT after a lost majority test (R71, R92, R159): only a HAIL stays queued, a frame in flight is not retried, the fallback starts. -/
def enterLockedOut (s : State) : Work :=
  let s1 := putJoin (fun j => { j with state := .lockedOut, windowStart := none, nextHail := later s.clock.ms 200,
                                       lowerStart := some s.clock.ms }) s
  let s2 := { s1 with line := { s1.line with queue := s1.line.queue.filter fun i => i.what == .hail,
                                             flight := s1.line.flight.map fun f => { f with noRetry := true } } }
  if isPost s2 then handCommand .release (applyPattern false .alternate s2) else (s2, [])

/-- The end of joining (R91). -/
def endJoining (s : State) : Work := if majorityPasses s then enterJoined s else enterLockedOut s

/-- Completion of the join, tested when the first HAIL has been sent and at each verdict after it (R91). -/
def testCompletion (s : State) : Work :=
  if s.join.state = .hailing ∧ s.join.firstHailSent ∧ s.join.verdicts.all (fun e => e.2 == .equal) then endJoining s else (s, [])

/-! ### Commands -/

/-- HAIL_TIMER (R88, R92): a further HAIL every 200 ms while HAILING or LOCKED_OUT. -/
def execHailTimer (dt : Nat) (s : State) : Host.Outcome State Fault Refusal :=
  .next (event dt s (guarded
    (fun s => (s.join.state == .hailing || s.join.state == .lockedOut) && !s.join.blind && reached s.clock.ms s.join.nextHail)
    (plain fun s => request .hail (putJoin (fun j => { j with nextHail := later j.nextHail 200 }) s))))

/-- JOIN_WINDOW_END (R91). -/
def execJoinWindowEnd (dt : Nat) (s : State) : Host.Outcome State Fault Refusal :=
  .next (event dt s (guarded (fun s => s.join.state == .hailing && ranFor s s.join.windowStart s.cfg.timing.joinWindow) endJoining))

/-- The age of a peer exceeds the peer timeout (R98). -/
def peerTimedOut (s : State) (p : Peer) : Bool :=
  match p.state with
  | .live => p.age.any fun a => peerTimeout s < a
  | .hailing => s.join.state == .joined && p.lastHeard.any fun t => peerTimeout s < sinceMs s t
  | .unheard | .stale | .mismatched => false

/-- PEER_AGE_TIMEOUT (R98): the entry becomes STALE. -/
def execPeerAgeTimeout (dt : Nat) (station : Nat) (s : State) : Host.Outcome State Fault Refusal :=
  .next (event dt s (guarded (fun s => (peerAt s station).any (peerTimedOut s)) (plain (setPeerState station .stale))))

/-- The agreement tolerance has run for a peer (R101). -/
def toleranceReached (s : State) (p : Peer) : Bool :=
  !p.tolerancePassed && p.mismatchSince.any fun t => reached s.clock.ms (later t s.cfg.timing.tolerance)

/-- AGREEMENT_TOLERANCE_REACHED (R101): PEER_DISAGREES is raised. -/
def execAgreementToleranceReached (dt : Nat) (station : Nat) (s : State) : Host.Outcome State Fault Refusal :=
  .next (event dt s (guarded (fun s => (peerAt s station).any (toleranceReached s))
    (plain fun s => raiseCond (condOf .peerDisagrees station 0) (mapPeer station (fun p => { p with tolerancePassed := true }) s))))

/-- LOCKOUT_LOWER_TIMER (R92, R159): 8 s after the entry into LOCKED_OUT the fallback hands LOWER. -/
def execLockoutLowerTimer (dt : Nat) (s : State) : Host.Outcome State Fault Refusal :=
  .next (event dt s (guarded (fun s => s.join.state == .lockedOut && isPost s && ranFor s s.join.lowerStart 8000)
    fun s => handCommand .lower (putJoin (fun j => { j with lowerStart := none }) s)))

end Sys2Proof.Machine
end

