-- ==== Sys2Proof/Machine/Detection.lean ====
section
/-! DEFINITION. The head front end's filters, axle recognition, counting, speed and deadlines (chapters 01 and 02), and their commands ACCEPTED_EDGE,
COMPARATOR_SAMPLE, FIRST_COVER_AGED, DEADLINE_EXPIRY. -/

namespace Sys2Proof.Machine

/-! ### The filter (R2, R3) -/

/-- The head under sweep, where there is one: none while a START sweep waits (R9, R12). -/
def DpUnit.swept (u : DpUnit) : Option HeadPos :=
  match u.sweep with
  | none => none
  | some w => if w.waiting then none else some (if w.onOther then otherHead u.nearer else u.nearer)

/-- A head is filtered: it has a working threshold and its first level, and is not under sweep (R2, R3, R9; log 14). -/
def DpUnit.filtered (u : DpUnit) (p : HeadPos) : Bool := (u.head p).threshold.isSome && (u.head p).levelTaken && u.swept != some p

/-- A level reads COVERED at a head's working threshold (R2). -/
def Head.reads (h : Head) (level : Nat) : Bool := h.threshold.any fun t => level < t

/-- A sample that is not the N-th differing one moves the pending run (R3); none where it is the N-th. -/
def Head.sample (n : Nat) (now : Time) (level : Nat) (h : Head) : Option Head :=
  if h.reads level = h.covered then some { h with run := 0 }
  else if h.run + 1 < n then some { h with run := h.run + 1, runStart := if h.run = 0 then now else h.runStart }
  else none

/-- The N-th consecutive differing sample: the level changes, the run is empty, the edge flag is set (R3, R5). -/
def Head.accept (h : Head) : Head := { h with covered := !h.covered, run := 0 }.markEdge (!h.covered)

/-- A sample is the N-th consecutive differing one of a head (R3). -/
def edgeAt (s : State) (u : DpUnit) (p : HeadPos) (level : Nat) : Bool :=
  u.filtered p && (u.head p).reads level != (u.head p).covered && s.cfg.timing.filterLength ≤ (u.head p).run + 1

/-! ### Axle recognition (R14, R15) -/

/-- A recogniser move, with the travel of an axle counted: true for first to second. -/
abbrev Recognised := Recog × Option Bool

/-- The edge interval of a cover of the other head (R14). -/
def Recog.interval (now t : Time) (r : Recog) : Nat := if r.aged then 10000000 - (now - t).toNat else (t - r.firstCover).toNat

/-- One edge of one head at a time, `bothClear` the levels after it (R14). -/
def Recog.edge (now t : Time) (p : HeadPos) (cover bothClear : Bool) (r : Recog) : Recognised :=
  match r.state, p, cover with
  | .idle, .first, true => ({ Recog.reset with state := .a1, firstCover := t }, none)
  | .idle, .second, true => ({ Recog.reset with state := .b2, firstCover := t }, none)
  | .a1, .first, false => (Recog.reset, none)
  | .a1, .second, true => ({ r with state := .a12, delta := some (r.interval now t) }, none)
  | .a12, .second, false => ({ r with state := .a1 }, none)
  | .a12, .first, false => ({ r with state := .a2 }, none)
  | .a2, .first, true => ({ r with state := .a12 }, none)
  | .a2, .second, false => (Recog.reset, some true)
  | .b2, .second, false => (Recog.reset, none)
  | .b2, .first, true => ({ r with state := .b21, delta := some (r.interval now t) }, none)
  | .b21, .first, false => ({ r with state := .b2 }, none)
  | .b21, .second, false => ({ r with state := .b1 }, none)
  | .b1, .second, true => ({ r with state := .b21 }, none)
  | .b1, .first, false => (Recog.reset, some false)
  | .unordered, _, _ => (if bothClear then Recog.reset else r, none)
  | _, _, _ => (r, none)

/-- What a simultaneous pair comes to (R15). -/
inductive PairOutcome where
  | unorderedEvent
  | stays
  | edges (cover clear : HeadPos)
deriving DecidableEq, Repr

/-- A pair judged by the recogniser's state and the levels it leaves (R15). -/
def pairOutcome (st : RecogState) (firstCovered secondCovered : Bool) : PairOutcome :=
  match st with
  | .unordered => .stays
  | _ =>
    if firstCovered = secondCovered then .unorderedEvent
    else if firstCovered then .edges .first .second
    else .edges .second .first

/-- The recogniser after an unordered event, or a pair taken in UNORDERED (R15). -/
def Recog.unorder (t : Time) (bothClear : Bool) (r : Recog) : Recog :=
  if bothClear then Recog.reset
  else if r.state = .idle then { Recog.reset with state := .unordered, firstCover := t }
  else { r with state := .unordered }

/-- Two edges of a pair, the cover first (R15). -/
def Recog.pair (now t : Time) (cover clear : HeadPos) (r : Recog) : Recognised :=
  let r1 := (r.edge now t cover true false).1
  r1.edge now t clear false false

/-! ### DP states (R17 to R19) -/

/-- The state of a DP changes: DP_FAULTED stands while it is FAULTED, and entry into FAULTED disturbs its sections (R18). -/
def setDpState (slot : Slot) (st : DpState) (s : State) : State :=
  match dpAt s slot with
  | none => s
  | some u =>
    let s1 := putDp { u with state := st } s
    if u.state = st then s1
    else if st = .faulted then dpFaultsSections u.id (raiseCond (condOf .dpFaulted u.id 0) s1)
    else if u.state = .faulted then clearCond (condOf .dpFaulted u.id 0) s1
    else s1

/-- The recogniser reloaded from levels, read as inward travel (R17). -/
def Recog.reload (now : Time) (nearSecond firstCovered secondCovered : Bool) : Recog :=
  match firstCovered, secondCovered with
  | false, false => Recog.reset
  | true, true => { state := if nearSecond then .a12 else .b21, firstCover := now, aged := false, delta := none, noSpeed := true }
  | true, false => { state := if nearSecond then .a1 else .b1, firstCover := now, aged := false, delta := none, noSpeed := true }
  | false, true => { state := if nearSecond then .a2 else .b2, firstCover := now, aged := false, delta := none, noSpeed := true }

/-- A DP reloaded from its filtered levels, which set the edge flags as accepted ones (R5, R17; log 15). -/
def DpUnit.reload (now : Time) (u : DpUnit) : DpUnit :=
  { u with recog := Recog.reload now u.nearSecond u.first.covered u.second.covered, first := u.first.markLevel, second := u.second.markLevel }

/-- The DP holds a fault cause (R18). -/
def DpUnit.caused (u : DpUnit) : Bool := u.supplyCause || u.thresholdCause || u.unorderedCause

/-- A DP enters WORKING, its recogniser reloaded (R19). -/
def dpWorks (slot : Slot) (s : State) : State :=
  match dpAt s slot with
  | none => s
  | some u => setDpState slot .working (putDp (u.reload s.clock.us) s)

/-! ### The unordered history (R16) -/

/-- A time joins the history of at most three (R16). -/
def joinHistory (h : List Time) (t : Time) : List Time := if h.length < 3 then h ++ [t] else h.drop 1 ++ [t]

/-- The history holds three events within 60 s (R16). -/
def historyFull (h : List Time) : Bool :=
  match h with
  | [a, _, c] => (c - a).toNat < 60000
  | _ => false

/-- An unordered event (R15, R16, R18). -/
def unorderedEvent (slot : Slot) (t : Time) (s : State) : State :=
  let s1 := setLatch .unorderedSeen s
  match dpAt s1 slot with
  | none => s1
  | some u =>
    let h := joinHistory u.history (msAt s1 t)
    if historyFull h then setDpState slot .faulted (putDp { u with history := [], unorderedCause := true } s1)
    else putDp { u with history := h } s1

/-! ### Speed, delay, deadline (R23 to R31) -/

/-- The quotient of R23. -/
def speedQuotient (spacing delta : Nat) : Nat := spacing * 100000 / delta

/-- The speed of an axle after its clamps, 0 for unknown (R23 to R25). -/
def axleSpeed (spacing : Nat) (delta : Option Nat) (noSpeed : Bool) : Nat :=
  match delta with
  | none => 0
  | some d =>
    if noSpeed ∨ 10000000 < d ∨ speedQuotient spacing d < 50 then 0 else min (speedQuotient spacing d) 5000

/-- The high clamp acts (R24). -/
def speedClamped (spacing : Nat) (delta : Option Nat) (noSpeed : Bool) : Bool :=
  match delta with
  | none => false
  | some d => !noSpeed && d ≤ 10000000 && 5000 < speedQuotient spacing d

/-- The arrival estimate in ms (R28). -/
def arrival (distance speed : Nat) : Nat := distance * 100000 / speed

/-- The delay of an axle in ms (R29). -/
def axleDelay (distance speed warning maxDelay : Nat) : Nat :=
  if speed = 0 then 0
  else roundDown100 (min (arrival distance speed - warning) maxDelay)

/-- A DP's published counts. -/
def DpUnit.counts (u : DpUnit) : Counts := { inn := u.inn, out := u.out, epoch := u.epoch }

/-- An axle as the recogniser hands it over (R20): direction, first-cover time in station ms, edge interval, no-speed mark. -/
structure Axle where
  inward : Bool
  coverMs : Time
  delta : Option Nat
  noSpeed : Bool
deriving DecidableEq, Repr

/-- An own axle applied to one record (R44): the count with its effects, then the baseline. -/
def Sect.ownAxle (now : Time) (minSweep : Nat) (usable : Bool) (u : DpUnit) (inward : Bool) (r : Sect) : Sect :=
  (r.applyMoves now minSweep usable (movesOf u.id r.id (if inward then 1 else 0) (if inward then 0 else 1))).setBase u.id (some u.counts)

/-- A speed is computed for the axle: it is inward and the record on the crossing side has a strike axle left (R26). -/
def Sect.measures (inward : Bool) (r : Sect) : Bool := inward && r.strikes < 4

/-- The strike axle in its record: the count rises, t0 is set where it rose from 0 (R26), and the candidate is applied (R31). `before` is the record as
the axle arrived. -/
def Sect.strikeAxle (coverMs : Time) (delay : Nat) (before r : Sect) : Sect :=
  let t0 := if before.strikes = 0 then coverMs else before.t0.getD coverMs
  { r with strikes := before.strikes + 1, t0 := some t0 }.candidate (later t0 delay)

/-- The record on the crossing side changed once for an own axle (R31, R44). -/
def Sect.crossingAxle (now : Time) (minSweep : Nat) (usable : Bool) (u : DpUnit) (a : Axle) (delay : Nat) (r : Sect) : Sect :=
  let r1 := r.ownAxle now minSweep usable u a.inward
  if r.measures a.inward then Sect.strikeAxle a.coverMs delay r r1 else r1

/-- A computed speed becomes the DP's last speed; a clamped one is reported (R24, R27). -/
def noteSpeed (slot : Slot) (v : Nat) (clamped : Bool) (s : State) : State :=
  match dpAt s slot with
  | none => s
  | some u =>
    let s1 := putDp { u with lastSpeed := v } s
    if clamped then raiseCond (condOf .speedImplausible u.id 0) (setLatch .speedClamped s1) else s1

/-- A late arrival (R38): an inward axle at an inner DP in OPEN, OPENING or CLOSING. -/
def lateArrival (s : State) (dp : Nat) (inward : Bool) : Bool :=
  inward && !dpOuter dp && (s.phase.phase == .opened || s.phase.phase == .opening || s.phase.phase == .closing)

/-- An axle counted at an own DP (R20): its cumulative count, the section tracker, the speed, a STRIKE. The record on the far side is changed before the
one on the crossing side, and SPEED_IMPLAUSIBLE is raised before LATE_ARRIVAL (R24, R38, R44; log 75). -/
def countAxle (u0 : DpUnit) (a : Axle) (s : State) : State :=
  let u := if a.inward then { u0 with inn := u0.inn + 1 } else { u0 with out := u0.out + 1 }
  let s1 := putDp u s
  let cross := crossingSide u.id
  let now := s.clock.ms
  let tm := s.cfg.timing
  let v := axleSpeed u.spacing a.delta a.noSpeed
  let measured := (sectAt s cross).any (Sect.measures a.inward)
  let s2 := mapSects ((boundedBy u.id).filter (· ≠ cross))
    (fun r => r.ownAxle now tm.minSweepAxles (sectUsable s1 r.id) u a.inward) s1
  let s3 := mapSect cross
    (fun r => r.crossingAxle now tm.minSweepAxles (sectUsable s2 r.id) u a (axleDelay u.distance v tm.warningTime tm.maxDelay)) s2
  let s4 := if measured then noteSpeed u.slot v (speedClamped u.spacing a.delta a.noSpeed) s3 else s3
  let s5 := if lateArrival s u.id a.inward then raiseCond (condOf .lateArrival u.id 0) (setLatch .lateArrivalSeen s4) else s4
  if s.join.state = .joined then request (.strike u.slot) s5 else s5

/-- The first-cover time in station milliseconds (R14, R26). -/
def coverMs (s : State) (r : Recog) : Time := if r.aged then s.clock.ms - 10000#32 else msAt s r.firstCover

/-- The axle of a recogniser move: travel first to second is inward where the second head is the nearer (R1). -/
def axleOf (s : State) (u : DpUnit) (firstToSecond : Bool) : Axle :=
  { inward := firstToSecond == u.nearSecond, coverMs := coverMs s u.recog, delta := u.recog.delta, noSpeed := u.recog.noSpeed }

/-- A recogniser move taken by a DP; a counted axle follows, with the interval and marks that the recogniser held before the move (R14, R20). -/
def takeMove (u : DpUnit) (m : Recognised) (s : State) : State :=
  let u1 := { u with recog := m.1 }
  let s1 := putDp u1 s
  match m.2 with
  | none => s1
  | some dir => countAxle u1 (axleOf s u dir) s1

/-- Accepted edges at a DP (R3 to R5, R14, R15): one head's, or both heads' as a simultaneous pair. -/
def takeEdges (slot : Slot) (first second : Bool) (s : State) : State :=
  match dpAt s slot with
  | none => s
  | some u =>
    let t := if first then u.first.runStart else u.second.runStart
    let u1 := { u with first := if first then u.first.accept else u.first, second := if second then u.second.accept else u.second }
    if u.state ≠ .working then putDp u1 s
    else if first ∧ second then
      match pairOutcome u.recog.state u1.first.covered u1.second.covered with
      | .stays => putDp { u1 with recog := u.recog.unorder t u1.headsClear } s
      | .unorderedEvent => unorderedEvent slot t (putDp { u1 with recog := u.recog.unorder t u1.headsClear } s)
      | .edges c d => takeMove u1 (u.recog.pair s.clock.us t c d) s
    else
      let p : HeadPos := if first then .first else .second
      takeMove u1 (u.recog.edge s.clock.us t p (u1.head p).covered u1.headsClear) s

/-- Every head named has its N-th differing sample (R3). -/
def edgesAt (s : State) (slot : Slot) (first second : Option Nat) : Bool :=
  (first.isSome || second.isSome) && (dpAt s slot).any fun u => first.all (edgeAt s u .first) && second.all (edgeAt s u .second)

/-- ACCEPTED_EDGE (R3). -/
def execAcceptedEdge (dt : Nat) (slot : Slot) (first second : Option Nat) (s : State) : Host.Outcome State Fault Refusal :=
  .next (event dt s (guarded (fun s => edgesAt s slot first second) (plain (takeEdges slot first.isSome second.isSome))))

/-- A comparator sample in a head's filter, where the head is filtered and the sample changes no level (R3). -/
def takeSample (slot : Slot) (p : HeadPos) (level : Nat) (s : State) : State :=
  match dpAt s slot with
  | none => s
  | some u =>
    if u.filtered p then
      match (u.head p).sample s.cfg.timing.filterLength s.clock.us level with
      | none => s
      | some h => putDp (u.mapHead (fun _ => h) p) s
    else s

/-- COMPARATOR_SAMPLE (R3). -/
def execComparatorSample (dt : Nat) (slot : Slot) (head : HeadPos) (level : Nat) (s : State) : Host.Outcome State Fault Refusal :=
  .next (event dt s (plain (takeSample slot head level)))

/-- The first-cover time of a DP's recogniser has come to lie 10 s in the past (R14). -/
def Recog.ages (now : Time) (r : Recog) : Bool := r.state != .idle && !r.aged && 10000000 ≤ (now - r.firstCover).toNat

/-- FIRST_COVER_AGED (R14): the no-speed mark is set, and the first-cover time is taken as 10 s before now from then on. -/
def execFirstCoverAged (dt : Nat) (slot : Slot) (s : State) : Host.Outcome State Fault Refusal :=
  .next (event dt s (plain fun s =>
    match dpAt s slot with
    | none => s
    | some u => if u.recog.ages s.clock.us then putDp { u with recog := { u.recog with aged := true, noSpeed := true } } s else s))

/-- The deadline of an approaching, not-held section has been reached (R33). -/
def Sect.expired (now : Time) (r : Sect) : Bool := r.approaching && !r.held && r.deadline.any (reached now)

/-- DEADLINE_EXPIRY (R33): an event for phase evaluation. -/
def execDeadlineExpiry (dt : Nat) (sec : Nat) (s : State) : Host.Outcome State Fault Refusal :=
  .next (event dt s (guarded (fun s => (sectAt s sec).any (Sect.expired s.clock.ms)) fun s => (s, [.evaluate])))

end Sys2Proof.Machine
end

