-- ==== Sys2Proof/Machine/Calibration.lean ====
section
/-! DEFINITION. Head supply proving (R6) and the calibration sweep (R7 to R13), with their commands HEAD_SUPPLY_CHECK, CALIBRATION_TIMER_EXPIRY,
DUE_SWEEP_START, PROBE_WINDOW_END, SWEEP_ABANDONED. -/

namespace Sys2Proof.Machine

/-! ### The reply of CALIBRATE (R13) -/

/-- The reply of a command in progress is ready (R195). -/
def putReply (r : Reply) (s : State) : State := { s with port := { s.port with reply := some r } }

/-- A COMMANDED or RECOVERY sweep answers the CALIBRATE that started it (R13). -/
def sweepReply (k : SweepKind) (near far : SweepResult) (s : State) : State :=
  match k with
  | .commanded | .recovery => putReply { code := .done, content := .sweep near far } s
  | .start | .periodic => s

/-! ### Starting a sweep (R7 to R9, R12) -/

/-- A sweep of a DP starts: CALIBRATING from the start of the nearer head's sweep, whose filter is suspended and its pending run with it (R9, log 50). A
PERIODIC or COMMANDED sweep takes the due one (R7, R8). -/
def startSweep (k : SweepKind) (slot : Slot) (s : State) : State :=
  match dpAt s slot with
  | none => s
  | some u =>
    let w : Sweep := { kind := k, onOther := false, trial := 0, windowStart := s.clock.us, waiting := false, abandons := 0, wasDue := u.due,
                       nearResult := none }
    let due := match k with
      | .periodic | .commanded => false
      | .start | .recovery => u.due
    setDpState slot .calibrating (putDp ({ u with sweep := some w, due := due }.mapHead (fun h => { h with run := 0 }) u.nearer) s)

/-- The conditions under which a PERIODIC or COMMANDED sweep starts (R7). -/
def sweepConditions (s : State) (u : DpUnit) : Bool := u.state == .working && u.recog.state == .idle && boundsClear s u.id

/-- The conditions under which a RECOVERY sweep starts (R7). -/
def recoveryConditions (u : DpUnit) : Bool :=
  u.state == .faulted && u.first.supply == .normal && u.second.supply == .normal
    && !(u.first.threshold.isSome && u.first.covered) && !(u.second.threshold.isSome && u.second.covered)

/-! ### Judging a head (R10) -/

/-- A head's result: its boundary under the margin, against its previous threshold (R10). A candidate that is both below 4 and outside the window is
refused as TOO_LOW (log 71). -/
def judgeHead (margin : Nat) (previous : Option Nat) (boundary : Option Nat) : SweepResult :=
  match boundary with
  | none => .refused .noBoundary
  | some b =>
    if b < margin + 4 then .refused .tooLow
    else if previous.any fun p => p + 12 < b - margin ∨ b - margin + 12 < p then .refused .outOfWindow
    else .accepted (b - margin)

/-- A result entered at its head: an accepted threshold clears CALIBRATION_FAILED, a refused one raises it (R10). -/
def enterResult (slot : Slot) (p : HeadPos) (r : SweepResult) (s : State) : State :=
  match dpAt s slot with
  | none => s
  | some u =>
    match r with
    | .accepted t => clearCond (condOf .calibrationFailed u.id (headItem p)) (putDp (u.mapHead (fun h => { h with threshold := some t }) p) s)
    | .refused _ => raiseCond (condOf .calibrationFailed u.id (headItem p)) s
    | .abandoned | .notRun => s

/-! ### Levels and the end of a sweep (R8, R12, R17 to R19) -/

/-- A head with a working threshold takes a level from a sample at it (R12, R17); a head without one stays CLEAR (R2). -/
def Head.takeLevel (level : Nat) (h : Head) : Head :=
  if h.threshold.isSome then { h with covered := h.reads level, run := 0, levelTaken := true } else h

/-- Both heads of a DP take their first levels at the end of its START sweep, as accepted edges (R5, R12). -/
def DpUnit.firstLevels (l : Levels) (u : DpUnit) : DpUnit :=
  { u with first := if u.first.threshold.isSome then (u.first.takeLevel l.first).markLevel else u.first,
           second := if u.second.threshold.isSome then (u.second.takeLevel l.second).markLevel else u.second }

/-- Both heads have a working threshold. -/
def DpUnit.thresholds (u : DpUnit) : Bool := u.first.threshold.isSome && u.second.threshold.isSome

/-- The THRESHOLD cause at the end of a sweep (R18): taken at the end of a START or RECOVERY sweep that leaves a head without a threshold, removed there
where every head has one. It stands while a sweep that has given the last head its threshold still runs (log 72). -/
def DpUnit.thresholdAfter (k : SweepKind) (u : DpUnit) : Bool :=
  match k with
  | .start | .recovery => !u.thresholds
  | .periodic | .commanded => u.thresholdCause && !u.thresholds

/-- A sweep result is an accepted one. -/
def SweepResult.isAccepted : SweepResult → Bool
  | .accepted _ => true
  | _ => false

/-- The DP goes to FAULTED or WORKING by its causes (R19). -/
def settleDp (slot : Slot) (s : State) : State :=
  match dpAt s slot with
  | none => s
  | some u => if u.caused then setDpState slot .faulted s else dpWorks slot s

/-- The calibration timer at the end of a sweep that was not abandoned (R8): it starts when START ends with the DP WORKING, and restarts at every other
end; an interval of 0 never starts it. -/
def DpUnit.timerAfter (interval : Nat) (now : Time) (k : SweepKind) (u : DpUnit) : DpUnit :=
  if interval = 0 then u
  else if k = .start ∧ u.caused then u
  else { u with calStart := some now }

/-- A head's filter resumes with the level that it has held (R10); in a START sweep it waits for its first level (R12, log 14). -/
def Head.resume (k : SweepKind) (h : Head) : Head := { h with run := 0, levelTaken := h.levelTaken || (k != .start && h.threshold.isSome) }

/-- The head still under sweep at the sweep's end (R10, R17; log 49): where the DP goes back to WORKING its level is taken, else its filter resumes. -/
def DpUnit.sweptResumes (k : SweepKind) (p : HeadPos) (levels : Levels) (u : DpUnit) : DpUnit :=
  u.mapHead (if u.caused then Head.resume k else Head.takeLevel (levelAt levels p)) p

/-- A sweep ends without abandonment (R8, R10, R12, R13, R17 to R19). `near` and `far` are the results of the nearer head and the other, `levels` the
samples that follow. -/
def endSweep (slot : Slot) (k : SweepKind) (near far : SweepResult) (levels : Levels) (s : State) : State :=
  match dpAt s slot with
  | none => s
  | some u =>
    let u1 := { u with sweep := none, thresholdCause := u.thresholdAfter k,
                       unorderedCause := u.unorderedCause && !(k == SweepKind.recovery && near.isAccepted && far.isAccepted) }
    let u2 := if k = .start then (u1.firstLevels levels).reload s.clock.us else u1.sweptResumes k (otherHead u.nearer) levels
    sweepReply k near far (settleDp slot (putDp (u2.timerAfter s.cfg.timing.calInterval s.clock.ms k) s))

/-- The head under sweep has its result (R9, R10): the sweep goes on to the other head, whose pending run ends with its filter's suspension (log 50) and
whose first window begins at this moment (log 1), or ends. -/
def headDone (slot : Slot) (w : Sweep) (r : SweepResult) (levels : Levels) (s : State) : State :=
  match dpAt s slot with
  | none => s
  | some u =>
    let p := if w.onOther then otherHead u.nearer else u.nearer
    let s1 := enterResult slot p r s
    if w.onOther then endSweep slot w.kind (w.nearResult.getD .notRun) r levels s1
    else
      match dpAt s1 slot with
      | none => s1
      | some v =>
        let v1 := { v with sweep := some { w with onOther := true, trial := 0, windowStart := s.clock.us, nearResult := some r } }
        putDp ((v1.mapHead (Head.resume w.kind) v.nearer).mapHead (fun h => { h with run := 0 }) (otherHead v.nearer)) s1

/-- The state with a DP's sweep replaced. -/
def putSweep (u : DpUnit) (w : Sweep) (s : State) : State := putDp { u with sweep := some w } s

/-- The end of a probe window (R9, R12): `lowest` is the lowest level of the window's samples. -/
def windowEnd (slot : Slot) (lowest : Nat) (levels : Levels) (s : State) : State :=
  match dpAt s slot with
  | none => s
  | some u =>
    match u.sweep with
    | none => s
    | some w =>
      let next := later w.windowStart 5000
      if w.waiting then
        if (u.head u.nearer).reads lowest then putSweep u { w with windowStart := next } s
        else putSweep u { w with waiting := false, trial := 0, windowStart := next } s
      else
        let prev := (u.head (if w.onOther then otherHead u.nearer else u.nearer)).threshold
        if lowest < w.trial then headDone slot w (judgeHead s.cfg.timing.calMargin prev (some w.trial)) levels s
        else if w.trial + 1 ≤ 63 then putSweep u { w with trial := w.trial + 1, windowStart := next } s
        else headDone slot w (judgeHead s.cfg.timing.calMargin prev none) levels s

/-- A probe window of a DP's sweep has ended. -/
def windowOver (s : State) (u : DpUnit) : Bool := u.sweep.any fun w => reached s.clock.us w.windowStart && 5000 ≤ sinceUs s w.windowStart

/-- PROBE_WINDOW_END (R9). -/
def execProbeWindowEnd (dt : Nat) (slot : Slot) (lowest : Nat) (levels : Levels) (s : State) : Host.Outcome State Fault Refusal :=
  .next (event dt s (guarded (fun s => (dpAt s slot).any (windowOver s)) (plain fun s => leaveCalibrating (windowEnd slot lowest levels s))))

/-! ### Abandonment (R11, R12) -/

/-- The head that is watched while another is under sweep (R9): one with a working threshold. -/
def DpUnit.watched (u : DpUnit) : Option HeadPos :=
  match u.swept with
  | none => none
  | some p => if (u.head (otherHead p)).threshold.isSome then some (otherHead p) else none

/-- The abandonment has come about (R11). -/
def abandoned (s : State) (u : DpUnit) : AbandonCause → Bool
  | .watchedHead level => u.watched.any fun p => (u.head p).reads level
  | .sectionNotClear => (u.sweep.any fun w => w.kind == .periodic || w.kind == .commanded) && !boundsClear s u.id

/-- The results of the two heads at abandonment (R13). -/
def abandonResults (w : Sweep) : SweepResult × SweepResult :=
  if w.onOther then (w.nearResult.getD .notRun, .abandoned) else (.abandoned, .notRun)

/-- A sweep of a kind other than START abandoned (R8, R11, R17; logs 16, 49): the swept head keeps its previous threshold; a PERIODIC or COMMANDED sweep
leaves the DP WORKING and its sweep due, a RECOVERY sweep leaves it to its remaining causes. -/
def abandonSweep (slot : Slot) (u : DpUnit) (w : Sweep) (levels : Levels) (s : State) : State :=
  let p := if w.onOther then otherHead u.nearer else u.nearer
  let u1 := { u with sweep := none, due := if w.kind = SweepKind.recovery then u.due else true, thresholdCause := u.thresholdCause && !u.thresholds }
  sweepReply w.kind (abandonResults w).1 (abandonResults w).2 (settleDp slot (putDp (u1.sweptResumes w.kind p levels) s))

/-- A START sweep's second head abandoned (R12): it waits for a window in which the nearer head reads CLEAR, and at the third abandonment its sweep ends
as refused with reason ABANDONED. -/
def abandonStart (slot : Slot) (u : DpUnit) (w : Sweep) (levels : Levels) (s : State) : State :=
  if 3 ≤ w.abandons + 1 then headDone slot w (.refused .abandoned) levels s
  else putSweep u { w with abandons := w.abandons + 1, waiting := true, trial := 0, windowStart := s.clock.us } s

/-- SWEEP_ABANDONED (R11, R12). -/
def execSweepAbandoned (dt : Nat) (slot : Slot) (cause : AbandonCause) (levels : Levels) (s : State) : Host.Outcome State Fault Refusal :=
  .next (event dt s (plain fun s =>
    match dpAt s slot with
    | none => s
    | some u =>
      match u.sweep with
      | none => s
      | some w =>
        if abandoned s u cause then
          let s1 := setLatch .calAbandoned s
          if w.kind = .start then leaveCalibrating (abandonStart slot u w levels s1) else abandonSweep slot u w levels s1
        else s))

/-! ### Due sweeps (R7, R8) -/

/-- The calibration timer of a DP has run out (R8). -/
def calExpired (s : State) (u : DpUnit) : Bool := ranFor s u.calStart (s.cfg.timing.calInterval * 60000)

/-- CALIBRATION_TIMER_EXPIRY (R8): the DP's sweep becomes due. -/
def execCalibrationTimerExpiry (dt : Nat) (slot : Slot) (s : State) : Host.Outcome State Fault Refusal :=
  .next (event dt s (plain fun s =>
    match dpAt s slot with
    | none => s
    | some u => if calExpired s u then putDp { u with calStart := none, due := true } s else s))

/-- DUE_SWEEP_START (R7): a due sweep starts as PERIODIC. -/
def execDueSweepStart (dt : Nat) (slot : Slot) (s : State) : Host.Outcome State Fault Refusal :=
  .next (event dt s (plain fun s =>
    match dpAt s slot with
    | none => s
    | some u => if u.due ∧ sweepConditions s u then startSweep .periodic slot s else s))

/-! ### Head supply (R6) -/

/-- A supply reading against the band (R6): none for a good reading, or the state that a bad one points to. -/
def supplyReading (band : Limits) (mA : Nat) : Option SupplyState :=
  if mA < band.low then some .openCircuit else if band.high < mA then some .shorted else none

/-- A reading moves a head's supply state and counts (R6). -/
def Head.supplyCheck (band : Limits) (mA : Nat) (h : Head) : Head :=
  match h.supply, supplyReading band mA with
  | .normal, some b => if 3 ≤ h.bad + 1 then { h with bad := h.bad + 1, good := 0, supply := b } else { h with bad := h.bad + 1, good := 0 }
  | .normal, none => { h with bad := 0 }
  | _, some b => { h with good := 0, supply := b }
  | _, none => if 10 ≤ h.good + 1 then { h with good := h.good + 1, bad := 0, supply := .normal } else { h with good := h.good + 1, bad := 0 }

/-- Some head of the DP is in OPEN_CIRCUIT or SHORTED. -/
def DpUnit.supplyBad (u : DpUnit) : Bool := u.first.supply != .normal || u.second.supply != .normal

/-- A supply fault ends a running sweep (R8, R10, R12, R13; log 17): the swept head keeps its previous threshold, the DP goes to FAULTED, a due sweep stays
due. A START sweep ends with the first levels, from which the recogniser is loaded. -/
def supplyEndsSweep (slot : Slot) (u : DpUnit) (w : Sweep) (levels : Levels) (s : State) : State :=
  let u1 := { u with sweep := none, due := u.due || w.kind == .periodic || w.wasDue, thresholdCause := u.thresholdAfter w.kind }
  let u2 := if w.kind = .start then (u1.firstLevels levels).reload s.clock.us else u1
  sweepReply w.kind (abandonResults w).1 (abandonResults w).2 (setDpState slot .faulted (putDp u2 s))

/-- A supply reading of one head at its DP (R6, R10, R18, R19). -/
def supplyCheck (slot : Slot) (p : HeadPos) (mA : Nat) (levels : Levels) (s : State) : State :=
  match dpAt s slot with
  | none => s
  | some u =>
    let u1 := u.mapHead (Head.supplyCheck s.cfg.headBand mA) p
    let u2 := { u1 with supplyCause := u1.supplyBad }
    let s1 := putDp u2 s
    if u1.supplyBad ∧ !u.supplyBad then
      match u.sweep with
      | some w => supplyEndsSweep slot u2 w levels s1
      | none => if u.state = .working then setDpState slot .faulted s1 else s1
    else if u.supplyBad ∧ !u1.supplyBad ∧ u.state = .faulted ∧ !u2.caused then dpWorks slot s1
    else s1

/-- HEAD_SUPPLY_CHECK (R6). -/
def execHeadSupplyCheck (dt : Nat) (slot : Slot) (head : HeadPos) (mA : Nat) (levels : Levels) (s : State) : Host.Outcome State Fault Refusal :=
  .next (event dt s (plain fun s => leaveCalibrating (supplyCheck slot head mA levels s)))

end Sys2Proof.Machine
end

