-- ==== Sys2Proof/Machine/Lamps.lean ====
section
/-! DEFINITION. The commands of the flash timebase (R143, R146), of lamp proving (R147, R148) and of DCI proving (R163, R164). -/

namespace Sys2Proof.Machine

/-! ### The flash timebase -/

/-- The time of the running cycle's end, where it has been reached: the offset would pass C - 1 (R143). -/
def cycleEnd (s : State) : Option Time :=
  match s.flash.mode with
  | .running origin => if flashCycle s ≤ sinceMs s origin then some (later origin (flashCycle s)) else none
  | .stopped | .holding _ => none

/-- The work of a cycle boundary (R146, R147, R163). -/
def cycleBoundary (boundary : Time) (s : State) : State :=
  let s1 := if s.flash.limited then setLatch .slewLimited s else s
  halfBoundary false { s1 with flash := s1.flash.nextCycle boundary }

/-- FLASH_CYCLE_BOUNDARY (R143, R146). -/
def execFlashCycleBoundary (dt : Nat) (s : State) : Host.Outcome State Fault Refusal :=
  .next (event dt s (plain fun s => match cycleEnd s with
    | none => s
    | some t => cycleBoundary t s))

/-- The half point of the running cycle has been reached for the first time (R143). -/
def halfPoint (s : State) : Bool :=
  match s.flash.mode with
  | .running origin => !s.flash.second && flashCycle s / 2 ≤ sinceMs s origin
  | .stopped | .holding _ => false

/-- FLASH_HALF_POINT (R143, R147, R163). -/
def execFlashHalfPoint (dt : Nat) (s : State) : Host.Outcome State Fault Refusal :=
  .next (event dt s (guarded halfPoint (plain fun s => halfBoundary true { s with flash := { s.flash with second := true } })))

/-- The hold of a lengthened cycle has ended (R146): its end, where it has been reached. -/
def holdEnd (s : State) : Option Time :=
  match s.flash.mode with
  | .holding till => if reached s.clock.ms till then some till else none
  | .stopped | .running _ => none

/-- CORRECTION_LENGTHEN_END (R146): the offset counts up from 0. -/
def execCorrectionLengthenEnd (dt : Nat) (s : State) : Host.Outcome State Fault Refusal :=
  .next (event dt s (plain fun s => match holdEnd s with
    | none => s
    | some t => { s with flash := { s.flash with mode := .running t } }))

/-! ### Lamp proving -/

/-- A lit interval still running has lasted 100 ms (R147, R164). -/
def litSampled (s : State) (driven : Bool) (start : Option Time) : Bool := driven && ranFor s start 100

/-- LAMP_HOT_SAMPLE (R147): one sample in each lit interval. -/
def execLampHotSample (dt : Nat) (aspect : Aspect) (main second : Nat) (s : State) : Host.Outcome State Fault Refusal :=
  .next (event dt s (guarded
    (fun s => isPost s && litSampled s (s.lights.aspect aspect).driven (s.lights.aspect aspect).litStart)
    (plain fun s => aspectResults aspect (s.cfg.lit aspect) main second
      { s with lights := s.lights.mapAspect (fun r => { r with litStart := none }) aspect })))

/-- The next start of a 30 s timer that has run out (R148, R164). -/
def nextCold (t : Option Time) : Option Time := t.map fun t => later t 30000

/-- A pulse for every aspect that is not lit (R148). -/
def LightsUnit.coldTest (now : Time) (u : LightsUnit) : LightsUnit :=
  ({ u with coldStart := nextCold u.coldStart,
            pulse := some { start := now, amber := true, red1 := true, red2 := true, sampled := false } }).trimPulse

/-- LAMP_COLD_TEST (R148). -/
def execLampColdTest (dt : Nat) (s : State) : Host.Outcome State Fault Refusal :=
  .next (event dt s (guarded (fun s => isPost s && ranFor s s.lights.coldStart 30000)
    (plain fun s => { s with lights := s.lights.coldTest s.clock.ms })))

/-- The results of a test pulse for the aspects that it still pulses (R148), taken in the order AMBER, RED_1, RED_2 (log 74). -/
def lampTest (p : LampPulse) (c : LampCurrents) (s : State) : State :=
  let s0 := { s with lights := { s.lights with pulse := some { p with sampled := true } } }
  let s1 := if p.amber then aspectTest .amber (s.cfg.test .amber) c.amberMain c.amberSecond s0 else s0
  let s2 := if p.red1 then aspectTest .red1 (s.cfg.test .red1) c.red1Main c.red1Second s1 else s1
  if p.red2 then aspectTest .red2 (s.cfg.test .red2) c.red2Main c.red2Second s2 else s2

/-- LAMP_TEST_SAMPLE (R148): 15 ms into the pulse. -/
def execLampTestSample (dt : Nat) (currents : LampCurrents) (s : State) : Host.Outcome State Fault Refusal :=
  .next (event dt s (plain fun s =>
    match s.lights.pulse with
    | none => s
    | some p => if !p.sampled ∧ 15 ≤ sinceMs s p.start then lampTest p currents s else s))

/-- A test pulse of 20 ms has run out (R148, R164). -/
def pulseOver (s : State) : PulseUnit → Bool
  | .lamps => ranFor s (s.lights.pulse.map (·.start)) 20
  | .dcis => ranFor s (s.dci.pulse.map (·.start)) 20

/-- The results of a sampled pulse counted for the outputs that it has pulsed to its end (R164, log 59), output 0 first (log 74). -/
def countDcis (s : State) : State :=
  match s.dci.pulse with
  | none => s
  | some p =>
    let s1 := if p.sampled && p.on0 then dciResult 0 p.good0 s else s
    if p.sampled && p.on1 then dciResult 1 p.good1 s1 else s1

/-- The pulse of a unit ends. -/
def endPulse (unit : PulseUnit) (s : State) : State :=
  match unit with
  | .lamps => { s with lights := { s.lights with pulse := none } }
  | .dcis => { countDcis s with dci := { (countDcis s).dci with pulse := none } }

/-- TEST_PULSE_END (R148, R164). -/
def execTestPulseEnd (dt : Nat) (unit : PulseUnit) (s : State) : Host.Outcome State Fault Refusal :=
  .next (event dt s (guarded (fun s => pulseOver s unit) (plain (endPulse unit))))

/-! ### Indicator proving -/

/-- DCI_HOT_SAMPLE (R164): one sample in each lit interval. -/
def execDciHotSample (dt : Nat) (out : Fin 2) (mA : Nat) (s : State) : Host.Outcome State Fault Refusal :=
  .next (event dt s (guarded (fun s => (s.dci.out out).any fun o => litSampled s o.driven o.litStart)
    (plain fun s => dciResult out (withinLimits s.cfg.dciLit mA) { s with dci := s.dci.mapOut (fun o => { o with litStart := none }) out })))

/-- A pulse for every assigned output that is DARK (R164). -/
def DciUnit.coldTest (now : Time) (u : DciUnit) : DciUnit :=
  ({ u with coldStart := nextCold u.coldStart,
            pulse := some { start := now, on0 := u.out0.isSome, on1 := u.out1.isSome, sampled := false, good0 := false, good1 := false } }).trimPulse

/-- DCI_COLD_TEST (R164). -/
def execDciColdTest (dt : Nat) (s : State) : Host.Outcome State Fault Refusal :=
  .next (event dt s (guarded (fun s => isReport s && ranFor s s.dci.coldStart 30000)
    (plain fun s => { s with dci := s.dci.coldTest s.clock.ms })))

/-- A test pulse with its sample judged (R164); the results count at its end (log 59). -/
def DciPulse.judged (lim : Limits) (mA0 mA1 : Nat) (p : DciPulse) : DciPulse :=
  { p with sampled := true, good0 := withinLimits lim mA0, good1 := withinLimits lim mA1 }

/-- DCI_TEST_SAMPLE (R164): 15 ms into the pulse. -/
def execDciTestSample (dt : Nat) (mA0 mA1 : Nat) (s : State) : Host.Outcome State Fault Refusal :=
  .next (event dt s (plain fun s =>
    match s.dci.pulse with
    | none => s
    | some p =>
      if !p.sampled ∧ 15 ≤ sinceMs s p.start then { s with dci := { s.dci with pulse := some (p.judged s.cfg.dciTest mA0 mA1) } } else s))

end Sys2Proof.Machine
end

