-- ==== Sys2Proof/Machine/LineEvents.lean ====
section
/-! DEFINITION. The commands of line access, sending and STATUS timing (R63 to R68, R72). -/

namespace Sys2Proof.Machine

/-- CARRIER_START (R63, R64): another station's carrier is seen on a line. -/
def execCarrierStart (dt : Nat) (line : Line) (s : State) : Host.Outcome State Fault Refusal :=
  .next (event dt s (plain (mapLine (fun r => { r with carrier := true }) line)))

/-- END_OF_CARRIER (R63, R66): the last other station's carrier on a line ends; reception held up by an abort starts again. The frame of a carrier is
refused after an abort only where its FRAME_RECEIVED comes before this command: the sender chooses the order of the two (log 65). -/
def execEndOfCarrier (dt : Nat) (line : Line) (s : State) : Host.Outcome State Fault Refusal :=
  .next (event dt s (plain (mapLine (fun r => { r with carrier := false, blocked := false }) line)))

/-- The line has been quiet for the idle gap of 1 ms: the end of the gap (R64). -/
def idleGapEnd (s : State) : Option Time :=
  match s.line.quietSince with
  | none => none
  | some q => if s.line.gapEnd.isNone ∧ lineQuiet s ∧ 1000 ≤ sinceUs s q then some (later q 1000) else none

/-- IDLE_GAP_END (R64): the holdoff begins to be counted; one that has run already lets its frame start. -/
def execIdleGapEnd (dt : Nat) (s : State) : Host.Outcome State Fault Refusal :=
  .next (event dt s (plain fun s =>
    match idleGapEnd s with
    | none => s
    | some g => contend { s with line := { s.line with gapEnd := some g } }))

/-- HOLDOFF_END (R64, R66). -/
def execHoldoffEnd (dt : Nat) (s : State) : Host.Outcome State Fault Refusal := .next (event dt s (plain contend))

/-- The station stops driving a line (R66). -/
def Flight.stop (f : Flight) : Line → Flight
  | .a => { f with drivingA := false }
  | .b => { f with drivingB := false }

/-- A readback mismatch on a driven line (R66): the frame is aborted on it; where another station's carrier stands on it, its rest is not received. -/
def readback (line : Line) (carrierRemains : Bool) (s : State) : State :=
  let s1 := { s with line := { s.line with flight := s.line.flight.map fun f => f.stop line } }
  setLatch .collisionSeen (mapLine (fun r => { r with carrier := carrierRemains, blocked := carrierRemains }) line s1)

/-- READBACK_MISMATCH (R66). -/
def execReadbackMismatch (dt : Nat) (line : Line) (carrierRemains : Bool) (s : State) : Host.Outcome State Fault Refusal :=
  .next (event dt s (guarded (fun s => drives s line) (plain (readback line carrierRemains))))

/-- A frame sent, and what its kind brings: the first HAIL sent lets the join complete (R66, R72, R91). -/
def attemptSent (f : Flight) (s : State) : Work :=
  let s1 := frameSent f s
  if f.item.what = .hail ∧ !s1.join.firstHailSent then testCompletion (putJoin (fun j => { j with firstHailSent := true }) s1) else (s1, [])

/-- The end of an attempt (R66): it succeeds where the frame has run to its end on at least one line. -/
def attemptEnd (f : Flight) (s : State) : Work := if f.drivingA ∨ f.drivingB then attemptSent f s else (attemptFailed f s, [])

/-- FRAME_ATTEMPT_END (R66 to R68). -/
def execFrameAttemptEnd (dt : Nat) (s : State) : Host.Outcome State Fault Refusal :=
  .next (event dt s fun s =>
    match s.line.flight with
    | none => (s, [])
    | some f => if attemptOver s f then attemptEnd f s else (s, []))

/-- The last STATUS left the queue at least some milliseconds ago, and none is queued (R72). -/
def statusRan (s : State) (n : Nat) : Bool := s.join.state == .joined && !statusQueued s && ranFor s (statusLeftAt s) n

/-- STATUS_PERIOD_EXPIRY (R72). -/
def execStatusPeriodExpiry (dt : Nat) (s : State) : Host.Outcome State Fault Refusal :=
  .next (event dt s (guarded (fun s => statusRan s s.cfg.timing.statusPeriod) (plain queueStatus)))

/-- STATUS_HOLDBACK_END (R72): a change held back is published once 40 ms have passed. -/
def execStatusHoldbackEnd (dt : Nat) (s : State) : Host.Outcome State Fault Refusal :=
  .next (event dt s (guarded (fun s => s.line.heldBack && statusRan s 40) (plain queueStatus)))

end Sys2Proof.Machine
end

