-- ==== Sys2Proof/Machine/Start.lean ====
section
/-! DEFINITION. The two resets (R194) and the start (R189 to R193): POWER_ON_RESET, SUPPLY_RESTORED, LOADING_END. -/

namespace Sys2Proof.Machine

/-! ### The resets (R194) -/

/-- The configuration memory that a reset finds (R189, R194): a LOADING that it interrupts has counted its start (log 7). -/
def memAtReset (s : State) : List Host.Cell :=
  if s.powered ∧ s.join.state = .loading then Memory.write s.mem 0 (Memory.read s.mem 0 + 1) else s.mem

/-- The station right after a power-on reset: every reset value, the configuration memory as it stands, the supply not yet restored (log 6). -/
def powerOn (s : State) : State := { State.reset with mem := memAtReset s, freeCount := s.freeCount, pending := s.pending }

/-- The station right after a maintainer restart: every reset value, the first-fault record and the latches kept (R186, R187, R194). -/
def maintainerRestart (s : State) : State :=
  { State.reset with powered := true, mem := memAtReset s, firstFault := s.firstFault, latches := s.latches, freeCount := s.freeCount, pending := s.pending }

/-- POWER_ON_RESET (R194): the counters start again from 0, so the microseconds before it are not seen. -/
def execPowerOnReset (_dt : Nat) (s : State) : Host.Outcome State Fault Refusal := .next (powerOn s)

/-- SUPPLY_RESTORED (R194): the power-on reset ends and LOADING begins. -/
def execSupplyRestored (dt : Nat) (s : State) : Host.Outcome State Fault Refusal := .next { advance dt s with powered := true }

/-! ### The end of LOADING (R189 to R192) -/

/-- The restart count read, risen by one and written back (R189); the write is made as LOADING ends (log 7), and where the readback differs the memory holds
what was read back (log 58). A memory that does not answer leaves a free value (log 8). -/
def countRestart (answers : Bool) (readBack : Option Byte) (s : State) : State :=
  if answers then
    let new := Memory.read s.mem 0 + 1
    { s with restartCount := new, mem := Memory.write s.mem 0 (readBack.getD new) }
  else { s with restartCount := Config.freeRestartCount s.freeCount, freeCount := s.freeCount + 1 }

/-- The byte read back equals the byte written (R189). -/
def readBackOk (readBack : Option Byte) (s : State) : Bool := readBack.all (· == Memory.read s.mem 0 + 1)

/-- An own DP as its block is built from the DP table (R1, R21): every value after reset, the count epoch from the restart count. -/
def DpUnit.build (epoch : Byte) (id : Nat) (e : DpEntry) : DpUnit :=
  { id := id, slot := e.slot, nearSecond := e.nearSecond, distance := e.distance, spacing := e.spacing, first := Head.reset, second := Head.reset,
    recog := Recog.reset, inn := 0, out := 0, epoch := epoch, lastSpeed := 0, history := [], state := .calibrating, supplyCause := false,
    thresholdCause := false, unorderedCause := false, calStart := none, due := false, sweep := none }

/-- The DP ids with their entries, in id order. -/
def dpTable (im : Image) : List (Nat × DpEntry) := (List.range im.dps.length).zip im.dps

/-- A peer's DP in the DP view after either reset (R41). -/
def ViewEntry.lost (id : Nat) (owner : Nat) : ViewEntry := { dp := id, owner := owner, state := .lost, latest := none, headsClear := false, lastSpeed := 0 }

/-- The stations of the list but the own one, each once (R93). -/
def otherStations (im : Image) : List StationEntry :=
  im.stations.foldl (fun l e => if e.number = im.own ∨ l.any (fun x => x.number == e.number) then l else l ++ [e]) []

/-- The image in force and everything that is built from it (R40, R41, R90, R93, R161). -/
def build (im : Image) (digest : Half) (s : State) : State :=
  { s with cfg := im, digest := digest,
           dps := ((dpTable im).filter fun d => d.2.owner = im.own).map fun d => DpUnit.build s.restartCount d.1 d.2,
           sections := (List.range (3 * im.tracks)).map (Sect.start im.startRestoring),
           view := ((dpTable im).filter fun d => d.2.owner ≠ im.own).map fun d => ViewEntry.lost d.1 d.2.owner,
           peers := (otherStations im).map Peer.unheard,
           join := { s.join with verdicts := (otherStations im).map fun e => (e.number, .unheard) },
           dci := { s.dci with out0 := dciBuild im (rolesOf im.stations im.own).report 0, out1 := dciBuild im (rolesOf im.stations im.own).report 1 } }

/-- Reception begins on both lines (R71, R78). -/
def beginReception (s : State) : State :=
  { s with line := { s.line with rxOn := true, a := { s.line.a with lastValid := s.clock.ms }, b := { s.line.b with lastValid := s.clock.ms } } }

/-- The flash timebase starts from offset 0, and the cold test timers start (R143, R148, R164). -/
def beginProving (s : State) : State :=
  { s with flash := { s.flash with mode := .running s.clock.ms },
           lights := { s.lights with coldStart := if isPost s then some s.clock.ms else none },
           dci := { s.dci with coldStart := if isReport s then some s.clock.ms else none } }

/-- The start outputs of a post once LOADING has ended, and the lockout fallback's pattern (R159, R193). -/
def startOutputs (s : State) : State := if isPost s then applyPattern false .alternate s else s

/-- The conditions that the sections' start states give (R42, R174). -/
def sectionStartConds (s : State) : State :=
  (s.sections.filter fun r => r.state == .unknown).foldl (fun w r => raiseCond (condOf .sectionUnknown r.id 0) w) s

/-- What both a passed image and a declared lockout begin with (R190, R192). -/
def beginService (im : Image) (digest : Half) (clamped : Bool) (s : State) : State :=
  let s1 := sectionStartConds (startOutputs (beginProving (beginReception (build im digest s))))
  if clamped then raiseCond (ownCond s1 .configClamped 0) s1 else s1

/-- The signaller line and the notice list start, where this station has the line (R165, R177). -/
def beginSignaller (s : State) : State :=
  if hasSignaller s then
    noticeSync { s with sig := { s.sig with started := true, due := some s.clock.ms }, notices := { s.notices with kept := true } }
  else s

/-- An image that has passed (R87, R192): START sweeps and CALIBRATING; a station with no own DP goes on to HAILING. -/
def loadPassed (im : Image) (digest : Half) (clamped : Bool) (s : State) : State :=
  let s1 := beginSignaller (beginService im digest clamped (putJoin (fun j => { j with state := .calibrating }) s))
  leaveCalibrating ((s1.dps.map (·.slot)).foldl (fun w slot => startSweep .start slot w) s1)

/-- Declared lockout (R92, R190): the fallback, and a HAIL at once and every 200 ms. -/
def loadDeclared (im : Image) (digest : Half) (clamped : Bool) (s : State) : State :=
  let s1 := putJoin (fun j => { j with state := .lockedOut, declared := true, nextHail := later s.clock.ms 200,
                                       lowerStart := some s.clock.ms }) s
  let s2 := beginService im digest clamped s1
  request .hail (raiseCond (ownCond s2 .configInvalid 0) s2)

/-- Blind lockout (R190): nothing is driven, sampled or proved; CONFIG_INVALID stands with this station as subject (log 24). -/
def loadBlind (own : Nat) (s : State) : State :=
  raiseCond (condOf .configInvalid own 0) (putJoin (fun j => { j with state := .lockedOut, blind := true }) s)

/-- The end of LOADING by the load check's finding (R190, R192). -/
def loaded (o : LoadOutcome) (s : State) : State :=
  match o with
  | .passed im d c => loadPassed im d c s
  | .declared im d c => loadDeclared im d c s
  | .blind own => loadBlind own s

/-- LOADING_END (R192). -/
def execLoadingEnd (dt : Nat) (answers : Bool) (readBack : Option Byte) (s : State) : Host.Outcome State Fault Refusal :=
  .next (event dt s (guarded (fun s => s.join.state == .loading)
    (plain fun s => loaded (loadCheck answers (readBackOk readBack s) s.mem) (countRestart answers readBack s))))

end Sys2Proof.Machine
end

