-- ==== Sys2Proof/Machine/Port.lean ====
section
/-! DEFINITION. The maintainer port (R195 to R197, R60, R103, R187). -/

namespace Sys2Proof.Machine

/-! ### Lines of text (12, "Maintainer port") -/

/-- Characters as bytes. -/
def ascii (l : List Char) : List Byte := l.map fun c => BitVec.ofNat 8 c.toNat

/-- The words of a line, parted at each single space. -/
def splitWords : List Byte → List (List Byte)
  | [] => [[]]
  | x :: rest =>
    if x = 32#8 then [] :: splitWords rest
    else match splitWords rest with
      | [] => [[x]]
      | w :: ws => (x :: w) :: ws

/-- A decimal digit. -/
def digitOf (x : Byte) : Option Nat := if 48 ≤ x.toNat ∧ x.toNat ≤ 57 then some (x.toNat - 48) else none

/-- The digits of a decimal number, taken on from a number read so far. -/
def digitsFrom (n : Nat) : List Byte → Option Nat
  | [] => some n
  | x :: rest => match digitOf x with
    | none => none
    | some d => digitsFrom (10 * n + d) rest

/-- A decimal number of at least one digit. -/
def decimal : List Byte → Option Nat
  | [] => none
  | x :: rest => digitsFrom 0 (x :: rest)

/-- The command of a line without its carriage return; none for an unknown name or a missing or malformed argument (R195). -/
def parseWords (w : List (List Byte)) : Option PortCmd :=
  if w = [ascii ['S', 'H', 'O', 'W'], ascii ['P', 'E', 'E', 'R', 'S']] then some .showPeers
  else if w = [ascii ['S', 'H', 'O', 'W'], ascii ['S', 'E', 'C', 'T', 'I', 'O', 'N', 'S']] then some .showSections
  else if w = [ascii ['S', 'H', 'O', 'W'], ascii ['D', 'E', 'T', 'E', 'C', 'T', 'I', 'O', 'N']] then some .showDetection
  else if w = [ascii ['S', 'H', 'O', 'W'], ascii ['N', 'O', 'T', 'I', 'C', 'E', 'S']] then some .showNotices
  else if w = [ascii ['S', 'H', 'O', 'W'], ascii ['F', 'I', 'R', 'S', 'T'], ascii ['F', 'A', 'U', 'L', 'T']] then some .showFirstFault
  else if w = [ascii ['R', 'E', 'A', 'D'], ascii ['L', 'A', 'T', 'C', 'H', 'E', 'S']] then some .readLatches
  else if w = [ascii ['R', 'E', 'A', 'D'], ascii ['M', 'I', 'S', 'M', 'A', 'T', 'C', 'H', 'E', 'S']] then some .readMismatches
  else if w = [ascii ['C', 'L', 'E', 'A', 'R'], ascii ['F', 'I', 'R', 'S', 'T'], ascii ['F', 'A', 'U', 'L', 'T']] then some .clearFirstFault
  else if w = [ascii ['R', 'E', 'S', 'T', 'A', 'R', 'T']] then some .restart
  else
    match w with
    | [name, arg] => if name = ascii ['C', 'A', 'L', 'I', 'B', 'R', 'A', 'T', 'E'] then (decimal arg).map .calibrate else none
    | [n1, n2, arg, kind] =>
      if n1 = ascii ['R', 'E', 'S', 'E', 'T'] ∧ n2 = ascii ['S', 'E', 'C', 'T', 'I', 'O', 'N'] then
        if kind = ascii ['S', 'W', 'E', 'E', 'P'] then (decimal arg).map fun n => .resetSection n .sweep
        else if kind = ascii ['D', 'I', 'R', 'E', 'C', 'T'] then (decimal arg).map fun n => .resetSection n .direct
        else none
      else none
    | _ => none

/-- The bytes of a command have stopped arriving for 2 s between two times (R195). -/
def stopped (t now : Time) : Bool := 2000000 ≤ (now - t).toNat

/-- A run of bytes none of which comes 2 s or more after the one before it (R195). -/
def flowing : List RxByte → Bool
  | a :: b :: rest => !stopped a.time b.time && flowing (b :: rest)
  | _ => true

/-- What the bytes received at the port come to (R195): no whole line yet, a whole line ended by its one carriage return, or a line broken off by the
silence of 2 s, with the bytes that came after it. -/
inductive LineRead where
  | incomplete
  | line
  | timeout (left : List RxByte)
deriving DecidableEq, Repr

/-- The bytes of a line read on from one of them, at a time (R195). -/
def readLineFrom (now : Time) (x : RxByte) : List RxByte → LineRead
  | [] => if x.byte = 13#8 then .line else if stopped x.time now then .timeout [] else .incomplete
  | y :: rest => if x.byte = 13#8 then .incomplete else if stopped x.time y.time then .timeout (y :: rest) else readLineFrom now y rest

/-- The bytes received at the port read at a time (R195). -/
def readLine (now : Time) : List RxByte → LineRead
  | [] => .incomplete
  | x :: rest => readLineFrom now x rest

/-- The command of a whole line (R195). -/
def parseLine (bytes : List RxByte) : Option PortCmd := parseWords (splitWords (bytes.dropLast.map (·.byte)))

/-! ### Taking a command (R195) -/

/-- The port IN_PROGRESS with a command and, where it is ready, its reply; the receive buffer is empty. -/
def putPort (cmd : PortCmd) (r : Option Reply) (s : State) : State :=
  { s with port := { s.port with cmd := some cmd, reply := r, rx := [] } }

/-- A reply without content. -/
def bare (c : ReplyCode) : Reply := { code := c, content := .empty }

/-- A DONE reply with its content. -/
def done (c : Content) : Reply := { code := .done, content := c }

/-- A command that arrives while another is IN_PROGRESS: BUSY behind the reply in progress, nothing while a BUSY reply waits or is being sent. -/
def busyPort (s : State) : State :=
  { s with port := { s.port with rx := [], busy := if s.port.busy = .none then .waiting else s.port.busy } }

/-- The port is IN_PROGRESS, or a BUSY reply is still to be sent to its end (R195). -/
def portTaken (s : State) : Bool := s.port.cmd.isSome || s.port.busy != .none

/-- A command taken (R195): BUSY where another is IN_PROGRESS, REFUSED_STATE in LOADING except for RESTART, else acted on. -/
def takeCommand (cmd : PortCmd) (act : State → State) (s : State) : State :=
  if portTaken s then busyPort s
  else if s.join.state = .loading ∧ cmd ≠ .restart then putPort cmd (some (bare .refusedState)) s
  else act s

/-- A command answered with one reply and no other effect. -/
def answered (cmd : PortCmd) (r : State → Reply) : State → State := takeCommand cmd fun s => putPort cmd (some (r s)) s

/-! ### Reading commands (R196) -/

/-- SHOW PEERS (R93, R196): in blind lockout the table and the record are empty. -/
def execShowPeers (dt : Nat) (s : State) : Host.Outcome State Fault Refusal :=
  .next (event dt s (plain (answered .showPeers fun s => done (.peers s.join.state s.peers s.join.verdicts))))

/-- SHOW SECTIONS (R40, R41, R196). -/
def execShowSections (dt : Nat) (s : State) : Host.Outcome State Fault Refusal :=
  .next (event dt s (plain (answered .showSections fun s => done (.sections s.sections (wholeView s) s.key.level))))

/-- What SHOW DETECTION gives of a head (R196). -/
def Head.line (h : Head) : HeadLine :=
  { threshold := h.threshold, covered := h.covered, supply := h.supply, coverSeen := h.coverSeen, clearSeen := h.clearSeen }

/-- What SHOW DETECTION gives of a DP (R196). -/
def DpUnit.line (u : DpUnit) : DetectionLine :=
  { dp := u.id, first := u.first.line, second := u.second.line, state := u.state, supplyCause := u.supplyCause, thresholdCause := u.thresholdCause,
    unorderedCause := u.unorderedCause, recog := u.recog.state, inn := u.inn, out := u.out, epoch := u.epoch, lastSpeed := u.lastSpeed,
    history := u.history, calStart := u.calStart, due := u.due }

/-- A DP with the edge flags of both heads cleared (R5). -/
def DpUnit.clearFlags (u : DpUnit) : DpUnit := { u with first := u.first.clearFlags, second := u.second.clearFlags }

/-- SHOW DETECTION (R5, R196): the edge flags are cleared after they have been taken. -/
def execShowDetection (dt : Nat) (s : State) : Host.Outcome State Fault Refusal :=
  .next (event dt s (plain (takeCommand .showDetection fun s =>
    { putPort .showDetection (some (done (.detection (s.dps.map DpUnit.line)))) s with dps := s.dps.map DpUnit.clearFlags })))

/-- The reply to SHOW NOTICES (R179, R196): UNKNOWN_ITEM without the signaller line; in declared lockout the station with the line keeps no list, and
shows it empty. -/
def noticesReply (s : State) : Reply :=
  if hasSignaller s then done (.notices s.notices.entries s.notices.present.length s.notices.saturated) else bare .unknownItem

/-- SHOW NOTICES (R196). -/
def execShowNotices (dt : Nat) (s : State) : Host.Outcome State Fault Refusal :=
  .next (event dt s (plain (answered .showNotices noticesReply)))

/-- SHOW FIRST FAULT (R184, R196). -/
def execShowFirstFault (dt : Nat) (s : State) : Host.Outcome State Fault Refusal :=
  .next (event dt s (plain (answered .showFirstFault fun s => done (.firstFault s.firstFault))))

/-- READ LATCHES (R187): all ten reported, then cleared. -/
def execReadLatches (dt : Nat) (s : State) : Host.Outcome State Fault Refusal :=
  .next (event dt s (plain (takeCommand .readLatches fun s =>
    { putPort .readLatches (some (done (.latches s.latches))) s with latches := Latches.reset })))

/-- A line of READ MISMATCHES (R103). -/
def Peer.mismatchLine (p : Peer) : MismatchLine :=
  { station := p.station, phase := p.stickyPhase, sections := p.stickySections, health := p.stickyHealth, held := p.mismatchSince.isSome }

/-- An entry with its sticky mismatch emptied (R103). -/
def Peer.unstick (p : Peer) : Peer := { p with stickyPhase := false, stickySections := false, stickyHealth := false }

/-- READ MISMATCHES (R103). -/
def execReadMismatches (dt : Nat) (s : State) : Host.Outcome State Fault Refusal :=
  .next (event dt s (plain (takeCommand .readMismatches fun s =>
    { putPort .readMismatches (some (done (.mismatches (s.peers.map Peer.mismatchLine)))) s with peers := s.peers.map Peer.unstick })))

/-! ### Acting commands (R197) -/

/-- CALIBRATE judged (R7): a COMMANDED or RECOVERY sweep starts and the reply waits for its end (R13), or the command is refused. -/
def calibrateAct (dp : Nat) (s : State) : State :=
  match ownDp s dp with
  | none => putPort (.calibrate dp) (some (bare .unknownItem)) s
  | some u =>
    if sweepConditions s u then startSweep .commanded u.slot (putPort (.calibrate dp) none s)
    else if recoveryConditions u then startSweep .recovery u.slot (putPort (.calibrate dp) none s)
    else putPort (.calibrate dp) (some (bare .refusedState)) s

/-- CALIBRATE (R7, R197). -/
def execCalibrate (dt : Nat) (dp : Nat) (s : State) : Host.Outcome State Fault Refusal :=
  .next (event dt s (plain (takeCommand (.calibrate dp) (calibrateAct dp))))

/-- The key input is active (R193); before its first sample it reads inactive (log 26). -/
def keyActive (s : State) : Bool := s.key.made

/-- The checks of RESET SECTION in their order (R60); none where all pass. -/
def resetRefusal (s : State) (sec : Nat) (kind : ResetKind) : Option ReplyCode :=
  match sectAt s sec with
  | none => some .unknownItem
  | some r =>
    if s.join.state ≠ .joined then some .refusedState
    else if r.state = .clear ∨ r.state = .occupied then some .refusedState
    else
      match kind with
      | .sweep => none
      | .direct => if !keyActive s then some .refusedKey else if !sectProven s sec then some .refusedState else none

/-- RESET SECTION acted on (R60): applied, broadcast, answered DONE. -/
def resetAct (sec : Nat) (kind : ResetKind) (s : State) : State :=
  match resetRefusal s sec kind with
  | some c => putPort (.resetSection sec kind) (some (bare c)) s
  | none => request (.order sec kind (keyActive s)) (applyReset kind sec (putPort (.resetSection sec kind) (some (bare .done)) s))

/-- RESET_SECTION (R60, R197). -/
def execResetSection (dt : Nat) (sec : Nat) (kind : ResetKind) (s : State) : Host.Outcome State Fault Refusal :=
  .next (event dt s (plain (takeCommand (.resetSection sec kind) (resetAct sec kind))))

/-- CLEAR FIRST FAULT (R186, R197). -/
def execClearFirstFault (dt : Nat) (s : State) : Host.Outcome State Fault Refusal :=
  .next (event dt s (plain (takeCommand .clearFirstFault fun s =>
    { putPort .clearFirstFault (some (bare .done)) s with firstFault := none })))

/-- RESTART (R197): the reply DONE; the restart follows at its end. -/
def execRestart (dt : Nat) (s : State) : Host.Outcome State Fault Refusal :=
  .next (event dt s (plain (answered .restart fun _ => bare .done)))

/-! ### Other lines (R195) -/

/-- What the bytes in the receive buffer with those of a command come to (R195). -/
def portRead (s : State) (bytes : List RxByte) : LineRead := readLine s.clock.us (s.port.rx ++ bytes)

/-- UNKNOWN_COMMAND (R195): a line that is none of the commands; in LOADING it is refused like every other (log 31). -/
def execUnknownCommand (dt : Nat) (bytes : List RxByte) (s : State) : Host.Outcome State Fault Refusal :=
  .next (event dt s (guarded (fun s => portRead s bytes == .line && (parseLine (s.port.rx ++ bytes)).isNone)
    (plain (answered .unknown fun _ => bare .unknownItem))))

/-- COMMAND_WHILE_BUSY (R195): any line that arrives while the port is taken. -/
def execCommandWhileBusy (dt : Nat) (bytes : List RxByte) (s : State) : Host.Outcome State Fault Refusal :=
  .next (event dt s (guarded (fun s => portRead s bytes == .line && portTaken s) (plain busyPort)))

/-- COMMAND_TIMEOUT (R195): the bytes of a command that have stopped arriving for 2 s before its end are discarded without a reply; a byte that comes after
the silence begins another command (log 62). -/
def execCommandTimeout (dt : Nat) (bytes : List RxByte) (s : State) : Host.Outcome State Fault Refusal :=
  .next (event dt s (plain fun s =>
    match portRead s bytes with
    | .timeout left => { s with port := { s.port with rx := left } }
    | .incomplete | .line => s))

/-! ### The end of a reply (R194, R195, R197) -/

/-- The command state returns to IDLE, and a waiting BUSY reply begins to be sent. -/
def replyEnds (s : State) : State :=
  { s with port := { s.port with cmd := none, reply := none, busy := if s.port.busy = .waiting then .sending else s.port.busy } }

/-- The last byte of the BUSY reply. -/
def busyEnds (s : State) : State := { s with port := { s.port with busy := .none } }

/-- The reply of RESTART has been sent to its end (R197). -/
def restartEnds (s : State) : Bool := s.port.cmd == some .restart && s.port.reply.isSome && s.port.busy != .sending

/-- The end of the reply in progress, or of the BUSY reply. -/
def replyEnd (s : State) : State :=
  if s.port.busy = .sending then busyEnds s else if s.port.reply.isSome then replyEnds s else s

/-- MAINTAINER_REPLY_END (R195, R197): after RESTART the station takes a maintainer restart. -/
def execMaintainerReplyEnd (dt : Nat) (s : State) : Host.Outcome State Fault Refusal :=
  .next (if s.powered && restartEnds s then maintainerRestart s else event dt s (plain replyEnd))

end Sys2Proof.Machine
end

