-- ==== Sys2Proof/Machine/Reception.lean ====
section
/-! DEFINITION. Receiving a frame (R74 to R77, R199): judgement, line health, screening, copy filter, hand-over; LINE_SILENCE (R79). -/

namespace Sys2Proof.Machine

/-- A valid frame passes to the copy filter (R75, R199): readable, from another station of the list. -/
def screen (s : State) (bytes : List Byte) : Option Frame :=
  match readFrame bytes with
  | none => none
  | some f => if f.source ≠ s.cfg.own ∧ s.cfg.stations.any (fun e => e.number == f.source) then some f else none

/-- The copy filter remembers a frame (R76). -/
def remembers (s : State) (f : Frame) : Bool :=
  s.line.filter.any fun e => e.source == f.source && e.kind == f.body.kind && e.seq == f.seq && sinceMs s e.time < 1000

/-- A line noted at a frame. -/
def Accepted.onLine (l : Line) (a : Accepted) : Accepted :=
  match l with
  | .a => { a with onA := true }
  | .b => { a with onB := true }

/-- The line flag of an entry set. -/
def Peer.seen (l : Line) (p : Peer) : Peer :=
  match l with
  | .a => { p with seenA := true }
  | .b => { p with seenB := true }

/-- An accepted frame still waits for its block. -/
def Accepted.is (f : Frame) (a : Accepted) : Bool := a.source == f.source && a.body.kind == f.body.kind && a.seq == f.seq

/-- A second copy dropped (R76, R94): the line of a STATUS is reported for the sender's line flags, to the frame where it still waits. -/
def secondCopy (l : Line) (f : Frame) (s : State) : State :=
  if f.body.kind = .status then
    if s.line.accepted.any (Accepted.is f) then
      { s with line := { s.line with accepted := s.line.accepted.map fun a => if a.is f then a.onLine l else a } }
    else
      { s with peers := s.peers.map fun p => if p.station = f.source ∧ p.lastSeq = some f.seq then p.seen l else p }
  else s

/-- A frame accepted (R76, R77): remembered, and handed on with its line, its end time and the station's own flash offset at that time (R145). -/
def acceptFrame (l : Line) (f : Frame) (s : State) : State :=
  let a : Accepted := Accepted.onLine l { source := f.source, seq := f.seq, body := f.body, onA := false, onB := false, endMs := s.clock.ms,
                                          flashAt := flashOffset s }
  { s with line := { s.line with
      filter := s.line.filter ++ [{ source := f.source, kind := f.body.kind, seq := f.seq, time := s.clock.ms }],
      accepted := s.line.accepted ++ [a] } }

/-- A frame received on a line (R74 to R77). -/
def receive (l : Line) (bytes : List Byte) (s : State) : State :=
  match judgeFrame s.cfg.crossing bytes with
  | .framingFailure | .crcFailure => lineCrcFailure l s
  | .foreign => mapLine (LineRec.push true) l s
  | .valid =>
    let s1 := lineValid l s
    match screen s1 bytes with
    | none => s1
    | some f => if remembers s1 f then secondCopy l f s1 else acceptFrame l f s1

/-- A line is received on: reception has begun, the station does not drive it, and no aborted frame's carrier holds it up (R66, R71). -/
def listens (s : State) (l : Line) : Bool := s.line.rxOn && !drives s l && !(lineAt s l).blocked

/-- FRAME_RECEIVED (R74). -/
def execFrameReceived (dt : Nat) (line : Line) (bytes : List Byte) (s : State) : Host.Outcome State Fault Refusal :=
  .next (event dt s (guarded (fun s => listens s line) (plain (receive line bytes))))

/-- LINE_SILENCE (R79). -/
def execLineSilence (dt : Nat) (line : Line) (s : State) : Host.Outcome State Fault Refusal :=
  .next (event dt s (guarded (fun s => s.line.rxOn && silent s line) (plain (lineFails line))))

end Sys2Proof.Machine
end

