-- ==== Sys2Proof/Machine/SignallerEvents.lean ====
section
/-! DEFINITION. The commands of the signaller line (R165 to R171, R200). -/

namespace Sys2Proof.Machine

/-- INDICATION_DUE (R166): the due mark is set and the grid moves on by 1000 ms; a free line starts the INDICATION at once (R165). -/
def execIndicationDue (dt : Nat) (s : State) : Host.Outcome State Fault Refusal :=
  .next (event dt s (guarded (fun s => s.sig.started && indicationReached s)
    (plain fun s => putSig { s.sig with due := s.sig.due.map fun t => later t 1000, dueMark := true } s)))

/-- NOTICE_SPACING_END (R165): the 200 ms have passed, and the arbiter is free to start a NOTICE. -/
def execNoticeSpacingEnd (dt : Nat) (s : State) : Host.Outcome State Fault Refusal := .next (event dt s (plain transmit))

/-- The frame in flight on the signaller line has been sent to its end. -/
def sigOver (s : State) (f : SigFlight) : Bool := sigUs f.bytes.length ≤ sinceUs s f.startUs

/-- The end of a frame (R168): the end time is recorded, and a NOTICE hands the notice unit its sent report (R182). -/
def sigEnd (f : SigFlight) (s : State) : State :=
  let s1 := putSig { s.sig with flight := none, lastEnd := some s.clock.ms } s
  match f.what with
  | .indication => s1
  | .notice id st => { s1 with notices := s1.notices.sent id st }

/-- SIGNALLER_FRAME_END (R168). -/
def execSignallerFrameEnd (dt : Nat) (s : State) : Host.Outcome State Fault Refusal :=
  .next (event dt s (plain fun s =>
    match s.sig.flight with
    | none => s
    | some f => if sigOver s f then sigEnd f s else s))

/-- The outcome of the bytes received from the box with those of a command, and the bytes left over (R169). -/
def inward (s : State) (bytes : List RxByte) : InwardOutcome × List RxByte := readInward s.clock.us (s.sig.rx ++ bytes)

/-- The receive buffer with the bytes left over. -/
def keepRx (left : List RxByte) (s : State) : State := putSig { s.sig with rx := left } s

/-- ACK (R170). -/
def execAck (dt : Nat) (bytes : List RxByte) (s : State) : Host.Outcome State Fault Refusal :=
  .next (event dt s (plain fun s =>
    if s.sig.started then
      match (inward s bytes).1 with
      | .ack cls => { keepRx (inward s bytes).2 s with notices := s.notices.ackClass cls }
      | .incomplete | .timeout | .query | .malformed => s
    else s))

/-- QUERY (R171). -/
def execQuery (dt : Nat) (bytes : List RxByte) (s : State) : Host.Outcome State Fault Refusal :=
  .next (event dt s (plain fun s =>
    if s.sig.started then
      match (inward s bytes).1 with
      | .query => { keepRx (inward s bytes).2 s with notices := s.notices.query }
      | .incomplete | .timeout | .ack _ | .malformed => s
    else s))

/-- SIGNALLER_BYTE_TIMEOUT (R169): a frame with more than 20 ms between two of its bytes, or since its last one, is discarded; a late byte is examined
first for a start byte (log 57). -/
def execSignallerByteTimeout (dt : Nat) (bytes : List RxByte) (s : State) : Host.Outcome State Fault Refusal :=
  .next (event dt s (plain fun s => if s.sig.started ∧ (inward s bytes).1 = .timeout then keepRx (inward s bytes).2 s else s))

/-- SIGNALLER_FRAME_MALFORMED (R169, R200): the frame is ignored, and the search for a start byte begins after the byte at which the fault was found. -/
def execSignallerFrameMalformed (dt : Nat) (bytes : List RxByte) (s : State) : Host.Outcome State Fault Refusal :=
  .next (event dt s (plain fun s => if s.sig.started ∧ (inward s bytes).1 = .malformed then keepRx (inward s bytes).2 s else s))

end Sys2Proof.Machine
end

