-- ==== Sys2Proof/Machine/Taken.lean ====
section
/-! DEFINITION. Frames taken by their blocks (R77): STRIKE (R35), STATUS (R94), HAIL and ANSWER (R95), RESET_ORDER (R61). -/

namespace Sys2Proof.Machine

/-- The state with the frame at the front of the hand-over taken off. -/
def dropAccepted (s : State) : State := { s with line := { s.line with accepted := s.line.accepted.drop 1 } }

/-! ### STRIKE (R35, R36, R41, R45) -/

/-- The candidate deadline of a remaining delay (R35). -/
def receivedDeadline (endMs : Time) (transit delay : Nat) : Time := later endMs (delay - transit)

/-- A STRIKE from a LIVE peer about a DP that is its own by this station's table (R35, R41, R45). -/
def takeStrike (a : Accepted) (b : StrikeBody) (s : State) : State :=
  if (peerAt s a.source).any (fun p => p.state == .live) ∧ ownerOf s b.dp = some a.source then
    let c : Counts := { inn := b.inn, out := b.out, epoch := b.epoch }
    let s1 := mapView b.dp (fun v => { v with latest := some c, lastSpeed := b.speed }) s
    peerCounts [{ dp := b.dp, counts := c }] none (b.delay.map fun d => (crossingSide b.dp, receivedDeadline a.endMs s.cfg.timing.transit d)) s1
  else s

/-- STRIKE_TAKEN (R35). -/
def execStrikeTaken (dt : Nat) (s : State) : Host.Outcome State Fault Refusal :=
  .next (event dt s (plain fun s =>
    match s.line.accepted with
    | [] => s
    | a :: _ => match a.body with
      | .strike b => takeStrike a b (dropAccepted s)
      | .status _ | .join _ | .service _ => s))

/-! ### STATUS (R94) -/

/-- A STATUS entered (R94). -/
def Peer.enter (now : Nat) (a : Accepted) (b : StatusBody) (p : Peer) : Peer :=
  { p with roles := b.roles, lastHeard := some a.endMs, lastStatus := some a.endMs, age := some now, epoch := some b.epoch, lastSeq := some a.seq,
           phase := some b.phase, post := b.post, dps := b.dps, sections := some b.sections, conds := b.conds, condCount := b.condCount,
           seenA := a.onA, seenB := a.onB }

/-- The DP reports of a frame that this station's own table gives to the source, in order of DP id (R45). Of two reports that name one DP the first is
taken (log 73). -/
def ownedReports (s : State) (n : Nat) (l : List DpReport) : List DpReport :=
  (List.range s.cfg.dps.length).filterMap fun d => if ownerOf s d = some n then l.find? fun r => r.dp == d else none

/-- The state of a peer's DP entered in the DP view (R41): a DP newly FAULTED disturbs its sections (R53). -/
def enterDpState (epoch : Byte) (s : State) (r : DpReport) : State :=
  let before := knownState s r.dp
  let s1 := mapView r.dp (fun v => { v with state := r.state, latest := some { inn := r.inn, out := r.out, epoch := epoch },
                                            headsClear := r.headsClear, lastSpeed := r.speed }) s
  if r.state = .faulted ∧ before ≠ .faulted then dpFaultsSections r.dp s1 else s1

/-- The DP reports of a STATUS at the section tracker (R45, R46, R56): the counts of the frame together, then the states in order of DP id. In a
declared lockout they move no section's state (`mapSect`, R190; log 70). -/
def takeReports (n : Nat) (epoch : Byte) (l : List DpReport) (returning : Bool) (s : State) : State :=
  let reps := ownedReports s n l
  let counts := reps.map fun r => ({ dp := r.dp, counts := { inn := r.inn, out := r.out, epoch := epoch } } : DpCounts)
  reps.foldl (enterDpState epoch) (peerCounts counts (if returning then some n else none) none s)

/-- The phase groups of the agreement compare (R99). -/
def phaseGroup : Phase → Nat
  | .closing | .closed => 0
  | .opening | .opened => 1
  | .failed => 2
  | .starting => 3

/-- PHASE differs (R99). -/
def phaseDiffers (s : State) (b : StatusBody) : Bool := s.cfg.cmpPhase && phaseGroup b.phase != phaseGroup s.phase.phase

/-- SECTIONS differs (R99). -/
def sectionsDiffer (s : State) (b : StatusBody) : Bool := s.cfg.cmpSections && b.sections != sectionSummary s

/-- LINE_HEALTH differs (R99). -/
def healthDiffers (s : State) (b : StatusBody) : Bool :=
  s.cfg.cmpHealth && (((b.healthA == .failed) != (s.line.a.health == .failed)) || ((b.healthB == .failed) != (s.line.b.health == .failed)))

/-- The agreement compare (R100 to R102). -/
def compareStatus (n : Nat) (endMs : Time) (b : StatusBody) (s : State) : State :=
  let dp := phaseDiffers s b
  let ds := sectionsDiffer s b
  let dh := healthDiffers s b
  if dp || ds || dh then
    mapPeer n (fun p => { p with stickyPhase := p.stickyPhase || dp, stickySections := p.stickySections || ds, stickyHealth := p.stickyHealth || dh,
                                 mismatchSince := some (p.mismatchSince.getD endMs) }) s
  else clearCond (condOf .peerDisagrees n 0) (mapPeer n Peer.forgetMismatch s)

/-- The post report at the flash timebase (R145): a STATUS from the leader that the station was following gives a measurement. -/
def statusMeasure (a : Accepted) (b : StatusBody) (leader : Option Nat) (s : State) : State :=
  match b.post with
  | none => s
  | some r => if leader = some a.source ∧ a.source ≠ s.cfg.own then measureFlash r.flash a.flashAt s else s

/-- A STATUS at its entry (R94): its fields entered, the entry LIVE; a change of state is handed on at once, and the phase is evaluated at it before the
reports are passed on (R96, R106), its sections not yet returned (R56, log 61). -/
def liveEntry (a : Accepted) (b : StatusBody) (p : Peer) (s : State) : State :=
  let s1 := setPeerState a.source .live (mapPeer a.source (Peer.enter (sinceMs s a.endMs) a b) s)
  if p.state = .live then s1 else drain drainFuel [.evaluate] s1

/-- The DP reports of an entered STATUS at the section tracker, then its phase and its post report at the phase unit and at the sequencer's wait
condition (R94, R106, R129): the phase and the step are judged once, with both (log 61). -/
def statusHandedOn (a : Accepted) (b : StatusBody) (p : Peer) (s : State) : State :=
  drain drainFuel [.evaluate, .judge] (takeReports a.source b.epoch b.dps (p.state != .live) (liveEntry a b p s))

/-- A STATUS with an equal digest (R94): entered; then its reports, its post report, its condition list, and last the compare, which reads the phase
that all of these leave (R100). -/
def enterStatus (a : Accepted) (b : StatusBody) (p : Peer) (s : State) : State :=
  let s1 := noticeSync (statusMeasure a b s.flash.leader (statusHandedOn a b p s))
  if s.join.state = .joined then compareStatus a.source a.endMs b s1 else s1

/-- A STATUS taken (R90, R94, R97); one with another digest sets the last heard time alone (R93, log 21). -/
def takeStatus (a : Accepted) (b : StatusBody) (s : State) : Work :=
  match peerAt s a.source with
  | none => (s, [])
  | some p =>
    let s1 :=
      if b.digest = s.digest then enterStatus a b p s
      else setPeerState a.source .mismatched (mapPeer a.source (fun q => { q with lastHeard := some a.endMs }) s)
    testCompletion (setVerdict a.source (if b.digest = s.digest then .equal else .different) s1)

/-- STATUS_TAKEN (R94). -/
def execStatusTaken (dt : Nat) (s : State) : Host.Outcome State Fault Refusal :=
  .next (event dt s fun s =>
    match s.line.accepted with
    | [] => (s, [])
    | a :: _ => match a.body with
      | .status b => takeStatus a b (dropAccepted s)
      | .strike _ | .join _ | .service _ => (s, []))

/-! ### JOIN (R89, R90, R95) -/

/-- The fields that every JOIN sets (R95). -/
def Peer.heardJoin (a : Accepted) (b : JoinBody) (p : Peer) : Peer :=
  { p with lastHeard := some a.endMs, joinShown := some b.join, roles := b.roles }

/-- The state of an entry after a JOIN (R95, R97, R98): of one that shows LOCKED_OUT, a HAIL is STALE at once, and an ANSWER takes an entry out of UNHEARD
and MISMATCHED. -/
def joinState (st : PeerState) (digestEqual hail lockedOut : Bool) : PeerState :=
  if !digestEqual then .mismatched
  else if lockedOut then
    match st with
    | .unheard | .mismatched => .stale
    | .hailing | .live | .stale => if hail then .stale else st
  else
    match st with
    | .unheard | .hailing | .mismatched => .hailing
    | .live | .stale => if hail then .hailing else st

/-- A JOIN at its peer entry and the join record (R90, R95). -/
def takeJoin (a : Accepted) (b : JoinBody) (s : State) : State :=
  match peerAt s a.source with
  | none => s
  | some p =>
    let equal := b.digest == s.digest
    let s1 := mapPeer a.source (Peer.heardJoin a b) s
    setVerdict a.source (if equal then .equal else .different)
      (setPeerState a.source (joinState p.state equal b.answerTo.isNone (b.join == .lockedOut)) s1)

/-- A HAIL is answered at once in CALIBRATING, HAILING and JOINED (R89). -/
def answerHail (n : Nat) (s : State) : State :=
  match s.join.state with
  | .calibrating | .hailing | .joined => request (.answer n) s
  | .loading | .lockedOut => s

/-- HAIL_TAKEN (R89, R95). -/
def execHailTaken (dt : Nat) (s : State) : Host.Outcome State Fault Refusal :=
  .next (event dt s fun s =>
    match s.line.accepted with
    | [] => (s, [])
    | a :: _ => match a.body with
      | .join b =>
        if b.answerTo.isNone then testCompletion (answerHail a.source (takeJoin a b (dropAccepted s))) else (s, [])
      | .strike _ | .status _ | .service _ => (s, []))

/-- ANSWER_TAKEN (R95). -/
def execAnswerTaken (dt : Nat) (s : State) : Host.Outcome State Fault Refusal :=
  .next (event dt s fun s =>
    match s.line.accepted with
    | [] => (s, [])
    | a :: _ => match a.body with
      | .join b => if b.answerTo.isSome then testCompletion (takeJoin a b (dropAccepted s)) else (s, [])
      | .strike _ | .status _ | .service _ => (s, []))

/-! ### RESET_ORDER (R61) -/

/-- The order is applied in this station's own view (R61); in declared lockout only a SWEEP order for a RESTORING section, which leaves its state as it is
(R190; log 70). -/
def orderAllowed (s : State) (b : OrderBody) : Bool :=
  (sectAt s b.sec).any fun r =>
    (r.state == .disturbed || r.state == .unknown || r.state == .restoring)
      && (!declaredLockout s || (r.state == .restoring && b.kind == .sweep))
      && (match b.kind with
        | .sweep => true
        | .direct => b.key && sectProven s b.sec)

/-- RESET_ORDER_TAKEN (R61, R62). -/
def execResetOrderTaken (dt : Nat) (s : State) : Host.Outcome State Fault Refusal :=
  .next (event dt s (plain fun s =>
    match s.line.accepted with
    | [] => s
    | a :: _ => match a.body with
      | .service b => if orderAllowed s b then applyReset b.kind b.sec (dropAccepted s) else dropAccepted s
      | .strike _ | .status _ | .join _ => s))

end Sys2Proof.Machine
end

