-- ==== Sys2Proof/Machine/Timers.lean ====
section
/-! DEFINITION. The commands of the phase timers (R119, R120), the sequencer's timers (R129, R131), the INFO expiry (R175) and the copy filter's
expiry (R76). -/

namespace Sys2Proof.Machine

/-- The release timer has run for the maximum closed time (R119). -/
def releaseExpires (s : State) : Bool := ranFor s s.phase.releaseStart (s.cfg.timing.maxClosed * 1000)

/-- RELEASE_TIMER_EXPIRY (R119): the expired mark is set, the timer stops counting, the phase is evaluated. -/
def execReleaseTimerExpiry (dt : Nat) (s : State) : Host.Outcome State Fault Refusal :=
  .next (event dt s (guarded releaseExpires fun s =>
    ({ s with phase := { s.phase with releaseStart := none, releaseExpired := true } }, [.evaluate])))

/-- A section's standing-test time has been reached (R120). -/
def standingReached (s : State) (sec : Nat) : Bool := s.phase.standing.any fun e => e.1 == sec && reached s.clock.ms e.2

/-- STANDING_TEST_TIME (R120): the test is made again. -/
def execStandingTestTime (dt : Nat) (sec : Nat) (s : State) : Host.Outcome State Fault Refusal :=
  .next (event dt s (guarded (fun s => standingReached s sec) fun s =>
    ({ s with phase := { s.phase with standing := s.phase.standing.filter fun e => e.1 ≠ sec } }, [.evaluate])))

/-- The dwell of the step in progress has run out (R129). -/
def dwellOver (s : State) : Bool := s.seq.active && s.seq.waitStart.isNone && (currentStep s).any (dwellRun s)

/-- DWELL_END (R129). -/
def execDwellEnd (dt : Nat) (s : State) : Host.Outcome State Fault Refusal :=
  .next (event dt s (guarded dwellOver (judgeStep walkFuel)))

/-- The wait limit of the step in progress has run out (R131). -/
def waitLimitOver (s : State) : Bool := s.seq.active && (currentStep s).any fun st => st.waitLimit.any fun n => ranFor s s.seq.waitStart n

/-- WAIT_LIMIT_EXPIRY (R131): the run ends in ERROR. -/
def execWaitLimitExpiry (dt : Nat) (s : State) : Host.Outcome State Fault Refusal :=
  .next (event dt s (guarded waitLimitOver (endRun .error)))

/-- An INFO condition's expiry time has been reached (R175). -/
def condExpired (s : State) (c : CondId) : Bool := s.conds.any fun e => e.id == c && e.expiry.any (reached s.clock.ms)

/-- INFO_CONDITION_EXPIRY (R175). -/
def execInfoConditionExpiry (dt : Nat) (cond : CondId) (s : State) : Host.Outcome State Fault Refusal :=
  .next (event dt s (guarded (fun s => condExpired s cond) (plain (clearCond cond))))

/-- The oldest entry of the copy filter has been there for 1000 ms (R76). -/
def filterExpires (s : State) : Bool := s.line.filter.head?.any fun e => 1000 ≤ sinceMs s e.time

/-- COPY_FILTER_ENTRY_EXPIRY (R76). -/
def execCopyFilterEntryExpiry (dt : Nat) (s : State) : Host.Outcome State Fault Refusal :=
  .next (event dt s (guarded filterExpires (plain fun s => { s with line := { s.line with filter := s.line.filter.drop 1 } })))

end Sys2Proof.Machine
end

