-- ==== Sys2Proof/Machine/Dispatch.lean ====
section
/-! DEFINITION. The meaning of each command, one arm for each constructor of Instr. -/

namespace Sys2Proof.Machine

/-- The effect of a command on everything but the queue. -/
def exec (i : Instr) (s : State) : Host.Outcome State Fault Refusal :=
  match i with
  | .powerOnReset dt => Sys2Proof.Machine.execPowerOnReset dt s
  | .loadingEnd dt answers readBack => Sys2Proof.Machine.execLoadingEnd dt answers readBack s
  | .acceptedEdge dt slot first second => Sys2Proof.Machine.execAcceptedEdge dt slot first second s
  | .firstCoverAged dt slot => Sys2Proof.Machine.execFirstCoverAged dt slot s
  | .headSupplyCheck dt slot head mA levels => Sys2Proof.Machine.execHeadSupplyCheck dt slot head mA levels s
  | .calibrationTimerExpiry dt slot => Sys2Proof.Machine.execCalibrationTimerExpiry dt slot s
  | .dueSweepStart dt slot => Sys2Proof.Machine.execDueSweepStart dt slot s
  | .probeWindowEnd dt slot lowest levels => Sys2Proof.Machine.execProbeWindowEnd dt slot lowest levels s
  | .sweepAbandoned dt slot cause levels => Sys2Proof.Machine.execSweepAbandoned dt slot cause levels s
  | .deadlineExpiry dt sec => Sys2Proof.Machine.execDeadlineExpiry dt sec s
  | .releaseTimerExpiry dt => Sys2Proof.Machine.execReleaseTimerExpiry dt s
  | .standingTestTime dt sec => Sys2Proof.Machine.execStandingTestTime dt sec s
  | .dwellEnd dt => Sys2Proof.Machine.execDwellEnd dt s
  | .waitLimitExpiry dt => Sys2Proof.Machine.execWaitLimitExpiry dt s
  | .flashCycleBoundary dt => Sys2Proof.Machine.execFlashCycleBoundary dt s
  | .flashHalfPoint dt => Sys2Proof.Machine.execFlashHalfPoint dt s
  | .correctionLengthenEnd dt => Sys2Proof.Machine.execCorrectionLengthenEnd dt s
  | .lampHotSample dt aspect main second => Sys2Proof.Machine.execLampHotSample dt aspect main second s
  | .lampColdTest dt => Sys2Proof.Machine.execLampColdTest dt s
  | .lampTestSample dt currents => Sys2Proof.Machine.execLampTestSample dt currents s
  | .testPulseEnd dt unit => Sys2Proof.Machine.execTestPulseEnd dt unit s
  | .contactChange dt contact => Sys2Proof.Machine.execContactChange dt contact s
  | .deadTimeEnd dt => Sys2Proof.Machine.execDeadTimeEnd dt s
  | .travelTimeout dt => Sys2Proof.Machine.execTravelTimeout dt s
  | .contactFaultTimeout dt => Sys2Proof.Machine.execContactFaultTimeout dt s
  | .lockoutLowerTimer dt => Sys2Proof.Machine.execLockoutLowerTimer dt s
  | .keyInputChange dt => Sys2Proof.Machine.execKeyInputChange dt s
  | .dciHotSample dt out mA => Sys2Proof.Machine.execDciHotSample dt out mA s
  | .dciColdTest dt => Sys2Proof.Machine.execDciColdTest dt s
  | .dciTestSample dt mA0 mA1 => Sys2Proof.Machine.execDciTestSample dt mA0 mA1 s
  | .carrierStart dt line => Sys2Proof.Machine.execCarrierStart dt line s
  | .endOfCarrier dt line => Sys2Proof.Machine.execEndOfCarrier dt line s
  | .idleGapEnd dt => Sys2Proof.Machine.execIdleGapEnd dt s
  | .holdoffEnd dt => Sys2Proof.Machine.execHoldoffEnd dt s
  | .readbackMismatch dt line carrierRemains => Sys2Proof.Machine.execReadbackMismatch dt line carrierRemains s
  | .frameAttemptEnd dt => Sys2Proof.Machine.execFrameAttemptEnd dt s
  | .statusPeriodExpiry dt => Sys2Proof.Machine.execStatusPeriodExpiry dt s
  | .statusHoldbackEnd dt => Sys2Proof.Machine.execStatusHoldbackEnd dt s
  | .frameReceived dt line bytes => Sys2Proof.Machine.execFrameReceived dt line bytes s
  | .copyFilterEntryExpiry dt => Sys2Proof.Machine.execCopyFilterEntryExpiry dt s
  | .lineSilence dt line => Sys2Proof.Machine.execLineSilence dt line s
  | .strikeTaken dt => Sys2Proof.Machine.execStrikeTaken dt s
  | .statusTaken dt => Sys2Proof.Machine.execStatusTaken dt s
  | .hailTaken dt => Sys2Proof.Machine.execHailTaken dt s
  | .answerTaken dt => Sys2Proof.Machine.execAnswerTaken dt s
  | .resetOrderTaken dt => Sys2Proof.Machine.execResetOrderTaken dt s
  | .hailTimer dt => Sys2Proof.Machine.execHailTimer dt s
  | .joinWindowEnd dt => Sys2Proof.Machine.execJoinWindowEnd dt s
  | .peerAgeTimeout dt station => Sys2Proof.Machine.execPeerAgeTimeout dt station s
  | .agreementToleranceReached dt station => Sys2Proof.Machine.execAgreementToleranceReached dt station s
  | .infoConditionExpiry dt cond => Sys2Proof.Machine.execInfoConditionExpiry dt cond s
  | .indicationDue dt => Sys2Proof.Machine.execIndicationDue dt s
  | .noticeSpacingEnd dt => Sys2Proof.Machine.execNoticeSpacingEnd dt s
  | .signallerFrameEnd dt => Sys2Proof.Machine.execSignallerFrameEnd dt s
  | .ack dt bytes => Sys2Proof.Machine.execAck dt bytes s
  | .query dt bytes => Sys2Proof.Machine.execQuery dt bytes s
  | .signallerByteTimeout dt bytes => Sys2Proof.Machine.execSignallerByteTimeout dt bytes s
  | .signallerFrameMalformed dt bytes => Sys2Proof.Machine.execSignallerFrameMalformed dt bytes s
  | .showPeers dt => Sys2Proof.Machine.execShowPeers dt s
  | .showSections dt => Sys2Proof.Machine.execShowSections dt s
  | .showDetection dt => Sys2Proof.Machine.execShowDetection dt s
  | .showNotices dt => Sys2Proof.Machine.execShowNotices dt s
  | .showFirstFault dt => Sys2Proof.Machine.execShowFirstFault dt s
  | .readLatches dt => Sys2Proof.Machine.execReadLatches dt s
  | .readMismatches dt => Sys2Proof.Machine.execReadMismatches dt s
  | .calibrate dt dp => Sys2Proof.Machine.execCalibrate dt dp s
  | .resetSection dt sec kind => Sys2Proof.Machine.execResetSection dt sec kind s
  | .clearFirstFault dt => Sys2Proof.Machine.execClearFirstFault dt s
  | .restart dt => Sys2Proof.Machine.execRestart dt s
  | .unknownCommand dt bytes => Sys2Proof.Machine.execUnknownCommand dt bytes s
  | .commandWhileBusy dt bytes => Sys2Proof.Machine.execCommandWhileBusy dt bytes s
  | .commandTimeout dt bytes => Sys2Proof.Machine.execCommandTimeout dt bytes s
  | .maintainerReplyEnd dt => Sys2Proof.Machine.execMaintainerReplyEnd dt s
  | .supplyRestored dt => Sys2Proof.Machine.execSupplyRestored dt s
  | .comparatorSample dt slot head level => Sys2Proof.Machine.execComparatorSample dt slot head level s
  | .contactSample dt input level => Sys2Proof.Machine.execContactSample dt input level s

end Sys2Proof.Machine
end

