-- ==== Sys2Proof/Safety.lean ====
section
/-! DEFINITION. The terms in which claims speak of a run: the parts of the state and what a step leaves alone, what an event does after its own work, and
the laws that every state of a safe run keeps. -/

namespace Sys2Proof.Machine

/-! ### Parts of the state and frames -/

/-- The parts of the station's state: one for each field of `State`, the model's count of changes with the condition set. -/
inductive Part where
  | clock
  | powered
  | mem
  | restartCount
  | digest
  | cfg
  | dps
  | sections
  | view
  | line
  | join
  | peers
  | phase
  | seq
  | lights
  | flash
  | barrier
  | dci
  | conds
  | notices
  | sig
  | latches
  | firstFault
  | port
  | key
  | freeCount
  | pending
deriving DecidableEq, Repr

/-- A part is the same in two states. -/
def Part.Same (p : Part) (s t : State) : Prop :=
  match p with
  | .clock => t.clock = s.clock
  | .powered => t.powered = s.powered
  | .mem => t.mem = s.mem
  | .restartCount => t.restartCount = s.restartCount
  | .digest => t.digest = s.digest
  | .cfg => t.cfg = s.cfg
  | .dps => t.dps = s.dps
  | .sections => t.sections = s.sections
  | .view => t.view = s.view
  | .line => t.line = s.line
  | .join => t.join = s.join
  | .peers => t.peers = s.peers
  | .phase => t.phase = s.phase
  | .seq => t.seq = s.seq
  | .lights => t.lights = s.lights
  | .flash => t.flash = s.flash
  | .barrier => t.barrier = s.barrier
  | .dci => t.dci = s.dci
  | .conds => t.conds = s.conds ∧ t.changes = s.changes
  | .notices => t.notices = s.notices
  | .sig => t.sig = s.sig
  | .latches => t.latches = s.latches
  | .firstFault => t.firstFault = s.firstFault
  | .port => t.port = s.port
  | .key => t.key = s.key
  | .freeCount => t.freeCount = s.freeCount
  | .pending => t.pending = s.pending

/-- Every part of the state but those listed is unchanged. -/
def KeptBut (l : List Part) (s t : State) : Prop := ∀ p : Part, p ∉ l → p.Same s t

/-- What the conclusion of an event may touch (`conclude`): the flash leader and pending correction, the indicators, the line controller, the
signaller-line transmitter and the change-pending mark of a notice whose NOTICE starts. -/
def watchedParts : List Part := [.flash, .dci, .line, .sig, .notices]

/-- What the handling of signals may touch (`drain`): the phase and the sequencer, the road lights and the barrier that the sequencer drives, the
indicators judged at each move, the conditions of lights and barrier (and the notices that follow the condition set), the held flags of a release, the
first-fault record. -/
def movedParts : List Part := [.phase, .seq, .lights, .barrier, .dci, .conds, .notices, .sections, .firstFault]

/-- What every event may touch besides its own work. -/
def followedParts : List Part := movedParts ++ watchedParts

/-- What the conclusion of an event leaves alone inside the watched parts: the records of the two lines, the copy filter, the hand-over and the time at
which the last STATUS left; how the flash offset runs; the sections, strings and cold test timer of the indicators; everything of the signaller line but
its frame in flight and due mark; everything of the notice list but the change-pending marks. -/
structure WatchedKept (s t : State) : Prop where
  line_a : t.line.a = s.line.a
  line_b : t.line.b = s.line.b
  line_rxOn : t.line.rxOn = s.line.rxOn
  line_filter : t.line.filter = s.line.filter
  line_accepted : t.line.accepted = s.line.accepted
  line_statusLeft : t.line.statusLeft = s.line.statusLeft
  flash_mode : t.flash.mode = s.flash.mode
  flash_second : t.flash.second = s.flash.second
  dci_out0 : t.dci.out0.map (fun o => (o.sections, o.lamp)) = s.dci.out0.map (fun o => (o.sections, o.lamp))
  dci_out1 : t.dci.out1.map (fun o => (o.sections, o.lamp)) = s.dci.out1.map (fun o => (o.sections, o.lamp))
  dci_coldStart : t.dci.coldStart = s.dci.coldStart
  sig_started : t.sig.started = s.sig.started
  sig_lastEnd : t.sig.lastEnd = s.sig.lastEnd
  sig_due : t.sig.due = s.sig.due
  sig_rx : t.sig.rx = s.sig.rx
  notices_kept : t.notices.kept = s.notices.kept
  notices_present : t.notices.present = s.notices.present
  notices_saturated : t.notices.saturated = s.notices.saturated
  notices_entries : t.notices.entries.map (fun n => (n.id, n.state)) = s.notices.entries.map (fun n => (n.id, n.state))

/-- A state differs from another only by what the conclusion of an event may touch. -/
structure Concluded (s t : State) : Prop where
  kept : KeptBut watchedParts s t
  watched : WatchedKept s t

/-- A state comes from the work of an event, with the signals that the work has given, by the handling of the signals and the conclusion. `s0` is the
state as the event found it, `s1` the state after the work. -/
def Handled (s0 s1 : State) (sigs : List Sig) (t : State) : Prop := t = conclude s0 (drain drainFuel sigs s1)

/-- The maintainer port IN_PROGRESS with a command, its reply ready (R195). -/
def noted (cmd : PortCmd) (code : ReplyCode) (content : Content) (s : State) : State :=
  { s with port := { s.port with cmd := some cmd, reply := some { code := code, content := content }, rx := [] } }

/-- The parts that the own work of a command may touch, the passing of time aside. -/
def touches : Instr → List Part
  | .powerOnReset _ => []
  | .loadingEnd _ _ _ =>
    [.mem, .restartCount, .freeCount, .cfg, .digest, .dps, .sections, .view, .peers, .join, .line, .flash, .lights, .dci, .conds, .notices, .sig,
      .phase]
  | .acceptedEdge _ _ _ _ => [.dps, .sections, .conds, .notices, .phase, .latches, .line]
  | .firstCoverAged _ _ | .comparatorSample _ _ _ _ | .calibrationTimerExpiry _ _ | .dueSweepStart _ _ => [.dps]
  | .headSupplyCheck _ _ _ _ _ | .probeWindowEnd _ _ _ _ => [.dps, .sections, .conds, .notices, .phase, .port, .join, .line]
  | .sweepAbandoned _ _ _ _ => [.dps, .sections, .conds, .notices, .phase, .port, .join, .line, .latches]
  | .deadlineExpiry _ _ => []
  | .releaseTimerExpiry _ | .standingTestTime _ _ => [.phase]
  | .dwellEnd _ => [.seq, .lights, .barrier, .conds, .notices]
  | .waitLimitExpiry _ => [.seq, .conds, .notices]
  | .flashCycleBoundary _ => [.flash, .lights, .dci, .latches]
  | .flashHalfPoint _ => [.flash, .lights, .dci]
  | .correctionLengthenEnd _ => [.flash]
  | .lampHotSample _ _ _ _ | .lampTestSample _ _ => [.lights, .conds, .notices]
  | .lampColdTest _ => [.lights]
  | .testPulseEnd _ .lamps => [.lights]
  | .testPulseEnd _ .dcis => [.dci, .conds, .notices]
  | .contactChange _ _ | .deadTimeEnd _ | .travelTimeout _ | .contactFaultTimeout _ | .contactSample _ (.contact _) _ => [.barrier, .conds, .notices]
  | .lockoutLowerTimer _ => [.join, .barrier, .conds, .notices]
  | .keyInputChange _ | .contactSample _ .key _ => [.key]
  | .dciHotSample _ _ _ => [.dci, .conds, .notices]
  | .dciColdTest _ | .dciTestSample _ _ _ => [.dci]
  | .carrierStart _ _ | .endOfCarrier _ _ | .idleGapEnd _ | .holdoffEnd _ | .statusPeriodExpiry _ | .statusHoldbackEnd _ => [.line]
  | .copyFilterEntryExpiry _ => [.line]
  | .readbackMismatch _ _ _ => [.line, .latches]
  | .frameAttemptEnd _ => [.line, .latches, .join, .peers, .view, .sections, .conds, .notices, .phase, .lights, .barrier]
  | .frameReceived _ _ _ => [.line, .peers, .latches, .conds, .notices]
  | .lineSilence _ _ => [.line, .latches, .conds, .notices]
  | .strikeTaken _ => [.line, .view, .sections, .conds, .notices, .phase]
  | .statusTaken _ => [.line, .flash, .join, .peers, .view, .sections, .conds, .notices, .phase, .seq, .lights, .barrier, .dci, .firstFault]
  | .hailTaken _ | .answerTaken _ | .joinWindowEnd _ => [.line, .join, .peers, .view, .sections, .conds, .notices, .phase, .lights, .barrier]
  | .resetOrderTaken _ => [.line, .sections, .conds, .notices, .phase]
  | .hailTimer _ => [.join, .line]
  | .peerAgeTimeout _ _ => [.peers, .view, .sections, .conds, .notices, .phase]
  | .agreementToleranceReached _ _ => [.peers, .conds, .notices]
  | .infoConditionExpiry _ _ => [.conds, .notices]
  | .indicationDue _ | .signallerByteTimeout _ _ | .signallerFrameMalformed _ _ => [.sig]
  | .noticeSpacingEnd _ | .signallerFrameEnd _ | .ack _ _ | .query _ _ => [.sig, .notices]
  | .showPeers _ | .showSections _ | .showNotices _ | .showFirstFault _ | .restart _ | .unknownCommand _ _ => [.port]
  | .commandWhileBusy _ _ | .commandTimeout _ _ | .maintainerReplyEnd _ => [.port]
  | .showDetection _ => [.port, .dps]
  | .readLatches _ => [.port, .latches]
  | .readMismatches _ => [.port, .peers]
  | .calibrate _ _ => [.port, .dps, .sections, .conds, .notices, .phase]
  | .resetSection _ _ _ => [.port, .sections, .conds, .notices, .phase, .line]
  | .clearFirstFault _ => [.port, .firstFault]
  | .supplyRestored _ => [.powered]

/-- The command is one of the two resets, or ends the reply to RESTART, which is a reset too (R194). -/
def resets (c : Instr) (s : State) : Bool :=
  match c with
  | .powerOnReset _ => true
  | .maintainerReplyEnd _ => s.powered && restartEnds s
  | _ => false

/-- A latch is set (R187). -/
def Latches.has (l : Latches) : Latch → Bool
  | .lineADrop => l.lineADrop
  | .lineBDrop => l.lineBDrop
  | .crcSeen => l.crcSeen
  | .collisionSeen => l.collisionSeen
  | .txRetrySeen => l.txRetrySeen
  | .calAbandoned => l.calAbandoned
  | .unorderedSeen => l.unorderedSeen
  | .lateArrivalSeen => l.lateArrivalSeen
  | .speedClamped => l.speedClamped
  | .slewLimited => l.slewLimited

/-- A frame of a kind and addressee is queued, or its attempt has begun. -/
def underway (s : State) (w : TxWhat) : Prop := (∃ i ∈ s.line.queue, i.what = w) ∨ ∃ f, s.line.flight = some f ∧ f.item.what = w

/-! ### Laws -/

/-- The configuration memory is in canonical form (log 5). -/
def MemLaw (s : State) : Prop := Memory.wf s.mem = true

/-- A law of the phase (R105): before JOINED the phase is STARTING, and it is OPEN or OPENING only while every island section is CLEAR and no failure
demand exists. -/
def PhaseLaw (s : State) : Prop :=
  (s.phase.phase ≠ .starting → s.join.state = .joined)
    ∧ (s.phase.phase = .opened ∨ s.phase.phase = .opening → islandsClear s = true ∧ failureDemand s = false)

/-- A law of the sequencer's link to the phase (R126, R127, R137): where the image has passed the load check every list can be walked to its end, and at a
post that is OPEN or OPENING no list is deferred and no run but OPEN's is in progress. -/
def SeqLaw (s : State) : Prop :=
  (s.join.state ≠ .loading → s.join.state ≠ .lockedOut → ∀ l : ListName, (traceList s.cfg.steps 24 [] (headOf s.cfg l)).isSome = true)
    ∧ (isPost s = true → s.phase.phase = .opened ∨ s.phase.phase = .opening →
        s.phase.deferred = none ∧ (s.seq.active = true → s.seq.list = some .opn))

/-- A law of the barrier (R153, R160, R190): an output is driven only where the unit serves a barrier, RAISE only while the phase is OPENING, and never
both outputs together. -/
def BarrierLaw (s : State) : Prop :=
  (s.barrier.lowerOn = true ∨ s.barrier.raiseOn = true → barrierServed s = true)
    ∧ (s.barrier.raiseOn = true → s.phase.phase = .opening ∧ s.barrier.lowerOn = false)

/-- Conditions in strictly rising rank (R173). -/
def rankedFrom (low : Nat) : List CondId → Bool
  | [] => true
  | c :: rest => low ≤ c.rank && rankedFrom (c.rank + 1) rest

/-- A law of the condition set (R174): ordered by rank, never two identical conditions, never more than 31. -/
def CondLaw (s : State) : Prop := rankedFrom 0 (s.conds.map (·.id)) = true ∧ s.conds.length ≤ 31

/-- A law of the notice list (R178, R179): entries ordered by rank, never two of one kind and subject, never more than 16; the present set is a set. -/
def NoticeLaw (s : State) : Prop :=
  rankedFrom 0 (s.notices.entries.map (·.id)) = true ∧ s.notices.entries.length ≤ 16 ∧ rankedFrom 0 s.notices.present = true

/-- A law of one section record (R40, R42, R49): its kind is that of its id, its balance is within 0 to 4095, its strike axles within 0 to 4, and a
section that is CLEAR, or UNKNOWN with underlying state CLEAR, has balance 0. -/
def Sect.Lawful (r : Sect) : Prop :=
  r.kind = sectKindOf r.id ∧ r.balance ≤ 4095 ∧ r.strikes ≤ 4 ∧ (r.effective = some .clear → r.balance = 0)

/-- Every section record is lawful. -/
def SectionLaw (s : State) : Prop := ∀ r ∈ s.sections, r.Lawful

/-- A law of the transmit queue (R69, R70): never two frames queued under one key, never more than two SERVICE frames, every queued frame with an order of
its own, and the frame in flight, whose place is kept for its return, with another. -/
def QueueLaw (s : State) : Prop :=
  (s.line.queue.map fun i => i.what.key).Nodup ∧ (services s.line.queue).length ≤ 2
    ∧ (s.line.queue.map (·.ord)).Nodup ∧ (∀ i ∈ s.line.queue, i.ord < s.line.nextOrd)
    ∧ ∀ f, s.line.flight = some f → f.item.ord < s.line.nextOrd ∧ ∀ i ∈ s.line.queue, i.ord ≠ f.item.ord

end Sys2Proof.Machine
end

