-- ==== Sys2Proof/WellFormed.lean ====
section
/-! DEFINITION. Which commands are well formed: the operand ranges that the manual gives and the types do not already enforce. -/

namespace Sys2Proof

/-- The microseconds that every command carries. -/
def Instr.elapsed : Instr → Nat
  | .powerOnReset dt | .loadingEnd dt _ _ | .acceptedEdge dt _ _ _ | .firstCoverAged dt _ | .headSupplyCheck dt _ _ _ _ => dt
  | .calibrationTimerExpiry dt _ | .dueSweepStart dt _ | .probeWindowEnd dt _ _ _ | .sweepAbandoned dt _ _ _ | .deadlineExpiry dt _ => dt
  | .releaseTimerExpiry dt | .standingTestTime dt _ | .dwellEnd dt | .waitLimitExpiry dt | .flashCycleBoundary dt | .flashHalfPoint dt => dt
  | .correctionLengthenEnd dt | .lampHotSample dt _ _ _ | .lampColdTest dt | .lampTestSample dt _ | .testPulseEnd dt _ => dt
  | .contactChange dt _ | .deadTimeEnd dt | .travelTimeout dt | .contactFaultTimeout dt | .lockoutLowerTimer dt | .keyInputChange dt => dt
  | .dciHotSample dt _ _ | .dciColdTest dt | .dciTestSample dt _ _ | .carrierStart dt _ | .endOfCarrier dt _ | .idleGapEnd dt => dt
  | .holdoffEnd dt | .readbackMismatch dt _ _ | .frameAttemptEnd dt | .statusPeriodExpiry dt | .statusHoldbackEnd dt => dt
  | .frameReceived dt _ _ | .copyFilterEntryExpiry dt | .lineSilence dt _ | .strikeTaken dt | .statusTaken dt | .hailTaken dt => dt
  | .answerTaken dt | .resetOrderTaken dt | .hailTimer dt | .joinWindowEnd dt | .peerAgeTimeout dt _ | .agreementToleranceReached dt _ => dt
  | .infoConditionExpiry dt _ | .indicationDue dt | .noticeSpacingEnd dt | .signallerFrameEnd dt | .ack dt _ | .query dt _ => dt
  | .signallerByteTimeout dt _ | .signallerFrameMalformed dt _ | .showPeers dt | .showSections dt | .showDetection dt | .showNotices dt => dt
  | .showFirstFault dt | .readLatches dt | .readMismatches dt | .calibrate dt _ | .resetSection dt _ _ | .clearFirstFault dt => dt
  | .restart dt | .unknownCommand dt _ | .commandWhileBusy dt _ | .commandTimeout dt _ | .maintainerReplyEnd dt | .supplyRestored dt => dt
  | .comparatorSample dt _ _ _ | .contactSample dt _ _ => dt

/-- Bytes in the order of their times (R169, R195): none ends earlier than the one before it. -/
def inOrder : List RxByte → Bool
  | a :: b :: rest => decide ((b.time - a.time).toNat < 2 ^ 31) && inOrder (b :: rest)
  | _ => true

/-- The operand checks of one command: an accepted edge has at least one head (R3); a section has an id 0 to 5 (00, "Crossing dimensions"); a station
has a number 0 to 15; the bytes from the box and from the maintainer come in the order of their times (R169, R195). The arguments of CALIBRATE and RESET
SECTION may be any number: the part answers a bad one (R195). -/
def Instr.operandsOk : Instr → Bool
  | .acceptedEdge _ _ a b => a.isSome || b.isSome
  | .deadlineExpiry _ sec => sec < 6
  | .standingTestTime _ sec => sec < 6
  | .peerAgeTimeout _ n => n < 16
  | .agreementToleranceReached _ n => n < 16
  | .ack _ l | .query _ l | .signallerByteTimeout _ l | .signallerFrameMalformed _ l => inOrder l
  | .unknownCommand _ l | .commandWhileBusy _ l | .commandTimeout _ l => inOrder l
  | _ => true

/-- A command is well formed when its operands are in range and less than 2^31 microseconds have passed since the one before it (00, "Station time":
every interval is shorter than 2^31 of its unit). -/
def Instr.wellFormed (i : Instr) : Bool := i.operandsOk && decide (i.elapsed < 2 ^ 31)

end Sys2Proof
end

