-- ==== Sys2Proof/Certificates/Slice0/Obligations.lean ====
section
/-! DEFINITION. The statements for the provers, each over every state and operands that meet its hypotheses; the terms they use are those of Safety.lean. -/

section

open Sys2Proof Sys2Proof.Machine

/-! ### The block as a machine -/

/-- A step takes the command at the front of the queue and has its effect on the state with the queue's rest; on an empty queue the block idles (log
3, the model's choice). -/
def Obligations.StepTakesTheFrontCommand : Prop :=
  (∀ (c : Instr) (rest : List Instr) (s : State), s.pending = c :: rest → step s = exec c { s with pending := rest })
    ∧ ∀ s : State, s.pending = [] → step s = .next s

/-- The state after reset keeps every law that the statements below say each step keeps. -/
def Obligations.ResetKeepsEveryLaw : Prop :=
  MemLaw State.reset ∧ PhaseLaw State.reset ∧ SeqLaw State.reset ∧ BarrierLaw State.reset ∧ CondLaw State.reset ∧ NoticeLaw State.reset
    ∧ SectionLaw State.reset ∧ QueueLaw State.reset

/-- POWER_ON_RESET (R194 and the reset values of R40, R71 to R73, R76, R78, R86, R93, R105, R127, R142 to R144, R148, R151, R153, R161, R165, R174,
R177, R184, R187, R195): what every block holds afterwards; the configuration memory is kept, but that a LOADING which the reset interrupts has
counted its start. Every part not named takes the value of State.reset, where the manual gives none by log 38. That no supply is restored yet is
log 6's reading of SUPPLY_RESTORED, that the interrupted LOADING has counted is log 7's of its increment, the model's choices. -/
def Obligations.PowerOnResetLeavesResetValues : Prop :=
  ∀ (dt : Nat) (s : State), ∃ t, exec (.powerOnReset dt) s = .next t
    ∧ t.clock.us = 0 ∧ t.clock.ms = 0 ∧ t.powered = false ∧ t.pending = s.pending
    ∧ (s.powered = false ∨ s.join.state ≠ .loading → t.mem = s.mem)
    ∧ (s.powered = true → s.join.state = .loading → t.mem = Memory.write s.mem 0 (Memory.read s.mem 0 + 1))
    ∧ t.join.state = .loading ∧ t.phase.phase = .starting ∧ t.phase.deferred = none
    ∧ t.seq.state = .idle ∧ t.seq.list = none ∧ t.seq.step = none ∧ t.seq.result = none
    ∧ t.barrier.command = .release ∧ t.barrier.lowerOn = false ∧ t.barrier.raiseOn = false
    ∧ t.lights.amber = false ∧ t.lights.red = .off ∧ t.lights.a0.driven = false ∧ t.lights.a1.driven = false ∧ t.lights.a2.driven = false
    ∧ t.line.rxOn = false ∧ t.line.queue = [] ∧ t.line.flight = none ∧ t.line.filter = []
    ∧ t.line.seqStrike = 0 ∧ t.line.seqStatus = 0 ∧ t.line.seqJoin = 0 ∧ t.line.seqService = 0
    ∧ t.line.a.health = .qualifying ∧ t.line.a.history = [] ∧ t.line.b.health = .qualifying ∧ t.line.b.history = []
    ∧ t.conds = [] ∧ t.notices.entries = [] ∧ t.notices.saturated = false ∧ t.firstFault = none
    ∧ (∀ l : Latch, t.latches.has l = false)
    ∧ t.port.cmd = none ∧ t.port.reply = none ∧ t.port.busy = .none ∧ t.port.rx = [] ∧ t.key.level = none
    ∧ t.dps = [] ∧ t.sections = [] ∧ t.view = [] ∧ t.peers = [] ∧ t.join.verdicts = [] ∧ t.join.windowStart = none
    ∧ t.flash.mode = .stopped ∧ t.flash.corr = none ∧ t.flash.leader = none ∧ t.lights.coldStart = none ∧ t.lights.pulse = none
    ∧ t.dci.out0 = none ∧ t.dci.out1 = none ∧ t.dci.coldStart = none ∧ t.dci.pulse = none
    ∧ t.sig.started = false ∧ t.sig.flight = none ∧ t.sig.due = none ∧ t.sig.rx = [] ∧ t.notices.kept = false ∧ t.notices.present = []
    ∧ t.barrier.up.level = none ∧ t.barrier.down.level = none ∧ t.barrier.travelStart = none ∧ t.barrier.stalled = false ∧ t.barrier.contactFault = false
    ∧ t.phase.closedEntry = none ∧ t.phase.releaseStart = none ∧ t.phase.releaseExpired = false ∧ t.phase.haltPending = false
    ∧ t.phase.heldByRelease = [] ∧ t.phase.standing = [] ∧ t.line.statusLeft = none ∧ t.line.accepted = []
    ∧ t = { State.reset with mem := t.mem, freeCount := s.freeCount, pending := s.pending }

/-- Until SUPPLY_RESTORED a power-on reset lasts (log 6): SUPPLY_RESTORED ends it and does nothing else but let time pass; while it lasts, every other
command but a power-on reset only lets time pass. -/
def Obligations.ResetLastsUntilSupplyRestored : Prop :=
  (∀ (dt : Nat) (s : State), exec (.supplyRestored dt) s = .next { advance dt s with powered := true })
    ∧ ∀ (c : Instr) (s : State), s.powered = false → (∀ dt, c ≠ .powerOnReset dt) → (∀ dt, c ≠ .supplyRestored dt) →
        exec c s = .next (advance c.elapsed s)

/-- The frame of every command: a command that is no reset answers a next state in which, time aside, only the parts that its own work may touch
(`touches`) and those that follow every event (`followedParts`: the phase, the sequencer and what they drive, the watched parts) may differ. The parts
that no command names there (the queue, the supply, the image, ...) are unchanged. -/
def Obligations.EveryCommandTouchesOnlyItsParts : Prop :=
  ∀ (c : Instr) (s : State), resets c s = false → ∃ t, exec c s = .next t ∧ KeptBut (touches c ++ followedParts) (advance c.elapsed s) t

/-- The conclusion of an event that has not filled the first-fault record touches the watched parts alone, and inside them only what `WatchedKept`
leaves open; the handling of its signals touches the moved parts alone. -/
def Obligations.ConclusionAndSignalsAreBounded : Prop :=
  (∀ s0 s1 : State, s1.firstFault = s0.firstFault → Concluded s1 (conclude s0 s1))
    ∧ ∀ (fuel : Nat) (sigs : List Sig) (s : State), KeptBut movedParts s (drain fuel sigs s)

/-! ### Laws that every step keeps -/

/-- The configuration memory keeps its canonical form at every step (log 5); LOADING alone writes it, at its end or where a reset interrupts it (log
7, the model's choice), and at address 0 alone (R189). -/
def Obligations.MemoryStaysCanonicalAndIsWrittenByLoadingAlone : Prop :=
  (∀ s t : State, MemLaw s → step s = .next t → MemLaw t)
    ∧ (∀ (c : Instr) (s t : State), exec c s = .next t →
      (∀ a : Nat, a ≠ 0 → Memory.read t.mem a = Memory.read s.mem a)
        ∧ ((∀ dt x y, c ≠ .loadingEnd dt x y) → resets c s = false ∨ s.powered = false ∨ s.join.state ≠ .loading → t.mem = s.mem))

/-- Before JOINED the phase is STARTING, and it is OPEN or OPENING only while every island section is CLEAR and no failure demand exists (R105).
With it every step keeps what the phase leaves to the sequencer (R126, R127, R137): every list of a passed image can be walked, and at a post that
is OPEN or OPENING no list is deferred and no run but that of OPEN is in progress. -/
def Obligations.EveryStepKeepsThePhaseLaw : Prop :=
  ∀ s t : State, SectionLaw s → PhaseLaw s → step s = .next t → PhaseLaw t ∧ (SeqLaw s → SeqLaw t)

/-- A barrier output is driven only where the unit serves a barrier, RAISE only in OPENING, and never both together. -/
def Obligations.EveryStepKeepsTheBarrierLaw : Prop :=
  ∀ s t : State, BarrierLaw s → step s = .next t → BarrierLaw t

/-- Every step keeps the condition set ordered by rank, without a repeat, at most 31 long (R173, R174), and the notice list ordered by rank, without a
repeat, at most 16 long, with its present set a set (R178, R179). -/
def Obligations.EveryStepKeepsTheConditionAndNoticeLaws : Prop :=
  (∀ s t : State, CondLaw s → step s = .next t → CondLaw t)
    ∧ (∀ s t : State, NoticeLaw s → step s = .next t → NoticeLaw t)

/-- Every section record keeps its law. -/
def Obligations.EveryStepKeepsTheSectionLaw : Prop :=
  ∀ s t : State, SectionLaw s → step s = .next t → SectionLaw t

/-- The transmit queue keeps its law: no key twice, at most two SERVICE frames. -/
def Obligations.EveryStepKeepsTheQueueLaw : Prop :=
  ∀ s t : State, QueueLaw s → step s = .next t → QueueLaw t

/-- What is recorded stays (R186, R187, R189, R192): a set latch until READ LATCHES or a power-on reset, a filled first-fault record until CLEAR FIRST
FAULT or a power-on reset, and, outside LOADING, the image in force, the layout digest and the restart count. A record filled by an event (R184,
R185) has the event's time, the station's restart count, and the section states, the LIVE mask and the condition count as the event leaves them. -/
def Obligations.RecordsStayUntilTheirCommand : Prop :=
  (∀ (c : Instr) (s t : State) (l : Latch), exec c s = .next t → s.latches.has l = true → (∀ dt, c ≠ .readLatches dt) →
      (∀ dt, c ≠ .powerOnReset dt) → t.latches.has l = true)
    ∧ (∀ (c : Instr) (s t : State) (r : FirstFault), exec c s = .next t → s.firstFault = some r → (∀ dt, c ≠ .clearFirstFault dt) →
      (∀ dt, c ≠ .powerOnReset dt) → t.firstFault = some r)
    ∧ (∀ (c : Instr) (s t : State), exec c s = .next t → s.join.state ≠ .loading → t.join.state ≠ .loading →
      t.cfg = s.cfg ∧ t.digest = s.digest ∧ t.restartCount = s.restartCount)
    ∧ (∀ (c : Instr) (s t : State) (r : FirstFault), exec c s = .next t → s.firstFault = none → t.firstFault = some r →
      r.time = t.clock.ms ∧ r.restartCount = t.restartCount ∧ r.sections = t.sections.map (·.state) ∧ r.condCount = t.conds.length
        ∧ ∀ n : Nat, n ∈ r.live ↔ n < 16 ∧ (n = t.cfg.own ∨ ∃ p ∈ t.peers, p.station = n ∧ p.state = .live))

/-- After every command of a powered station but the resets, each assigned indicator is PROVEN exactly where the phase is CLOSED, every configured
post is this station or LIVE and reports its barrier DOWN and no aspect FAILED, and none of the indicator's sections is held. -/
def Obligations.IndicatorsProvenOnlyAtAClosedCrossing : Prop :=
  ∀ (c : Instr) (s t : State), s.powered = true → resets c s = false → (∀ dt, c ≠ .supplyRestored dt) → exec c s = .next t →
    ∀ o : DciOut, t.dci.out0 = some o ∨ t.dci.out1 = some o →
      (o.proven = true ↔
        t.phase.phase = .closed
          ∧ (∀ n ∈ posts t,
              (n = t.cfg.own ∧ t.barrier.state = .down ∧ t.lights.a0.state ≠ .failed ∧ t.lights.a1.state ≠ .failed ∧ t.lights.a2.state ≠ .failed)
                ∨ (n ≠ t.cfg.own ∧ ∃ p r, peerAt t n = some p ∧ p.state = .live ∧ p.post = some r ∧ r.barrier = .down ∧ r.amber ≠ .failed
                    ∧ r.red1 ≠ .failed ∧ r.red2 ≠ .failed))
          ∧ ∀ r ∈ t.sections, r.held = true → r.id ∉ o.sections)

/-! ### Detection and calibration (chapters 01 and 02) -/

/-- COMPARATOR_SAMPLE at a filtered head (R3): a sample that agrees with the filtered level empties the pending run, a differing one that is not yet
the N-th joins it, its time kept from the first. Nothing else changes. -/
def Obligations.SampleMovesThePendingRun : Prop :=
  ∀ (dt : Nat) (slot : Slot) (p : HeadPos) (level th : Nat) (s : State) (u : DpUnit), s.powered = true → dpAt s slot = some u →
    u.filtered p = true → (u.head p).threshold = some th →
    (decide (level < th) = (u.head p).covered → ∃ t, exec (.comparatorSample dt slot p level) s = .next t
        ∧ Concluded (putDp (u.mapHead (fun h => { h with run := 0 }) p) (advance dt s)) t)
      ∧ (decide (level < th) ≠ (u.head p).covered → (u.head p).run + 1 < s.cfg.timing.filterLength →
          ∃ t, exec (.comparatorSample dt slot p level) s = .next t
            ∧ Concluded (putDp (u.mapHead (fun h => { h with run := h.run + 1, runStart := if h.run = 0 then (advance dt s).clock.us else h.runStart }) p)
                (advance dt s)) t)

/-- ACCEPTED_EDGE of one head (R3, R5, R14): the N-th differing sample flips the filtered level, empties the run and sets the edge flag of the edge.
At a DP that is not WORKING nothing else changes; at a WORKING one the recogniser makes its move for the edge, and where that counts no axle nothing
else changes. -/
def Obligations.AcceptedEdgeFlipsTheLevel : Prop :=
  ∀ (dt : Nat) (slot : Slot) (p : HeadPos) (level th : Nat) (s : State) (u u1 : DpUnit), s.powered = true → dpAt s slot = some u →
    u.filtered p = true → (u.head p).threshold = some th → decide (level < th) ≠ (u.head p).covered →
    s.cfg.timing.filterLength ≤ (u.head p).run + 1 →
    u1 = u.mapHead (fun h => { h with covered := !h.covered, run := 0, coverSeen := h.coverSeen || !h.covered, clearSeen := h.clearSeen || h.covered }) p →
    (u.state ≠ .working → ∃ t, exec (.acceptedEdge dt slot (if p = .first then some level else none) (if p = .second then some level else none)) s
        = .next t ∧ Concluded (putDp u1 (advance dt s)) t)
      ∧ ∀ m : Recognised, m = u.recog.edge (advance dt s).clock.us (u.head p).runStart p (!(u.head p).covered) u1.headsClear →
          u.state = .working → m.2 = none →
          ∃ t, exec (.acceptedEdge dt slot (if p = .first then some level else none) (if p = .second then some level else none)) s = .next t
            ∧ Concluded (putDp { u1 with recog := m.1 } (advance dt s)) t

/-- A simultaneous pair that leaves both heads alike is an unordered event (R15, R16): both levels flip, the UNORDERED_SEEN latch is set, the
recogniser goes to UNORDERED (IDLE where both heads are CLEAR) and the event joins the history, which keeps the last three; no axle is counted. A
history of three within 60 s is emptied, and the DP is FAULTED with the UNORDERED cause, DP_FAULTED standing and, outside declared lockout (R190),
its sections DISTURBED (R16, R18, R53). That the history holds its times in milliseconds of station time is log 19, the model's choice. -/
def Obligations.UnorderedPairJoinsTheHistory : Prop :=
  ∀ (dt : Nat) (slot : Slot) (l1 l2 th1 th2 : Nat) (s : State) (u : DpUnit) (f : Head → Head) (h : List Time), s.powered = true → dpAt s slot = some u →
    u.state = .working →
    u.filtered .first = true → u.filtered .second = true → u.first.threshold = some th1 → u.second.threshold = some th2 →
    decide (l1 < th1) ≠ u.first.covered → decide (l2 < th2) ≠ u.second.covered → u.first.covered = u.second.covered →
    s.cfg.timing.filterLength ≤ u.first.run + 1 → s.cfg.timing.filterLength ≤ u.second.run + 1 → u.recog.state ≠ .unordered → u.history.length ≤ 3 →
    f = (fun h => { h with covered := !h.covered, run := 0, coverSeen := h.coverSeen || !h.covered, clearSeen := h.clearSeen || h.covered }) →
    h = (u.history ++ [msAt (advance dt s) u.first.runStart]).drop (u.history.length - 2) →
    (h.length < 3 ∨ (∃ a, h.head? = some a ∧ 60000 ≤ (msAt (advance dt s) u.first.runStart - a).toNat) →
        ∃ t, exec (.acceptedEdge dt slot (some l1) (some l2)) s = .next t
          ∧ Concluded (setLatch .unorderedSeen (putDp { u with
              first := f u.first, second := f u.second,
              recog := if u.first.covered then Recog.reset
                else if u.recog.state = .idle then { Recog.reset with state := .unordered, firstCover := u.first.runStart }
                else { u.recog with state := .unordered },
              history := h } (advance dt s))) t)
      ∧ (∀ a : Time, h.length = 3 → h.head? = some a → (msAt (advance dt s) u.first.runStart - a).toNat < 60000 → s.conds.length ≤ 20 →
          declaredLockout s = false →
          ∃ t v, exec (.acceptedEdge dt slot (some l1) (some l2)) s = .next t ∧ dpAt t slot = some v ∧ v.state = .faulted ∧ v.unorderedCause = true
            ∧ v.history = [] ∧ v.first = f u.first ∧ v.second = f u.second ∧ v.inn = u.inn ∧ v.out = u.out ∧ t.latches.unorderedSeen = true
            ∧ hasCond t (condOf .dpFaulted u.id 0) = true ∧ ∀ r ∈ t.sections, r.id ∈ boundedBy u.id → r.state = .disturbed)

/-- An axle is counted (R20, R21): the edge that ends a pass raises the DP's cumulative count of its direction by one, modulo 65536, and leaves the
other count, the epoch and, in JOINED, a STRIKE under way. Inward is the travel that reaches the head nearer the crossing last. An inward axle at
an inner DP in OPEN, OPENING or CLOSING is a late arrival (R38): LATE_ARRIVAL stands for the DP and its latch is set; no other axle sets the
latch. -/
def Obligations.CountedAxleRaisesOneCount : Prop :=
  ∀ (dt : Nat) (slot : Slot) (p : HeadPos) (level th : Nat) (s : State) (u : DpUnit) (inward : Bool), s.powered = true → dpAt s slot = some u →
    u.state = .working → (p = .second ∧ u.recog.state = .a2) ∨ (p = .first ∧ u.recog.state = .b1) → u.filtered p = true →
    (u.head p).threshold = some th → (u.head p).covered = true → th ≤ level → s.cfg.timing.filterLength ≤ (u.head p).run + 1 → QueueLaw s →
    inward = decide (p = u.nearer) →
    ∃ t v, exec (.acceptedEdge dt slot (if p = .first then some level else none) (if p = .second then some level else none)) s = .next t
      ∧ dpAt t slot = some v ∧ v.inn = u.inn + (if inward then 1 else 0) ∧ v.out = u.out + (if inward then 0 else 1) ∧ v.epoch = u.epoch
      ∧ v.recog = Recog.reset ∧ (s.join.state = .joined → underway t (.strike slot))
      ∧ t.latches.lateArrivalSeen = (s.latches.lateArrivalSeen
          || (inward && !dpOuter u.id && (s.phase.phase == .opened || s.phase.phase == .opening || s.phase.phase == .closing)))
      ∧ (inward = true → dpOuter u.id = false → s.phase.phase = .opened ∨ s.phase.phase = .opening ∨ s.phase.phase = .closing → s.conds.length ≤ 20 →
          hasCond t (condOf .lateArrival u.id 0) = true)

/-- An inward axle at an outer DP whose approach section is CLEAR (R26, R29, R31, R43, R50, R51): the section becomes OCCUPIED from its far end with
balance 1 and one strike axle, its t0 is the axle's first-cover time, and its deadline is t0 plus the delay that the axle's speed and the DP's
distance give. -/
def Obligations.InwardAxleSetsTheDeadline : Prop :=
  ∀ (dt : Nat) (slot : Slot) (p : HeadPos) (level th : Nat) (s : State) (u : DpUnit) (r : Sect), s.powered = true → dpAt s slot = some u →
    u.state = .working → (p = .second ∧ u.recog.state = .a2) ∨ (p = .first ∧ u.recog.state = .b1) → u.filtered p = true →
    (u.head p).threshold = some th → (u.head p).covered = true → th ≤ level → s.cfg.timing.filterLength ≤ (u.head p).run + 1 →
    p = u.nearer → dpOuter u.id = true → sectAt s (crossingSide u.id) = some r → r.kind ≠ .island → r.state = .clear → r.balance = 0 → r.strikes = 0 →
    r.tag = none → r.deadline = none → r.held = false → s.phase.releaseExpired = false →
    ∃ t q, exec (.acceptedEdge dt slot (if p = .first then some level else none) (if p = .second then some level else none)) s = .next t
      ∧ sectAt t (crossingSide u.id) = some q ∧ q.state = .occupied ∧ q.tag = some .far ∧ q.balance = 1 ∧ q.strikes = 1
      ∧ q.t0 = some (coverMs (advance dt s) u.recog)
      ∧ q.deadline = some (later (coverMs (advance dt s) u.recog)
          (axleDelay u.distance (axleSpeed u.spacing u.recog.delta u.recog.noSpeed) s.cfg.timing.warningTime s.cfg.timing.maxDelay))

/-- Axle recognition (R14): heads covered and cleared in the order first, second count one axle of travel first to second, in the order second, first
one of travel second to first; a head covered and cleared alone counts none; and each such pass leaves the recogniser IDLE. Speed and delay (R23 to
R25, R28, R29), with chapter 02's own numbers: at 300 mm any interval of whole 20 us steps below 6,000 us is clamped to 5,000 cm/s and 6,000 us gives
5,000 unclamped; an unknown speed gives delay 0; a known one the arrival estimate less the target warning time, not below 0 nor above the maximum, in
whole 100 ms. -/
def Obligations.RecognitionSpeedAndDelayFollowTheRules : Prop :=
  (∀ (n1 n2 n3 n4 t1 t2 t3 t4 : Time),
      (let r1 := (Recog.reset.edge n1 t1 .first true false)
       let r2 := (r1.1.edge n2 t2 .second true false)
       let r3 := (r2.1.edge n3 t3 .first false false)
       let r4 := (r3.1.edge n4 t4 .second false true)
       (r1.2, r2.2, r3.2, r4.2) = (none, none, none, some true) ∧ r3.1.delta = some (t2 - t1).toNat ∧ r3.1.firstCover = t1 ∧ r4.1 = Recog.reset)
        ∧ (let r1 := (Recog.reset.edge n1 t1 .second true false)
           let r2 := (r1.1.edge n2 t2 .first true false)
           let r3 := (r2.1.edge n3 t3 .second false false)
           let r4 := (r3.1.edge n4 t4 .first false true)
           (r1.2, r2.2, r3.2, r4.2) = (none, none, none, some false) ∧ r3.1.delta = some (t2 - t1).toNat ∧ r3.1.firstCover = t1 ∧ r4.1 = Recog.reset)
        ∧ ∀ p : HeadPos, (Recog.reset.edge n1 t1 p true false).2 = none
            ∧ ((Recog.reset.edge n1 t1 p true false).1.edge n2 t2 p false true) = (Recog.reset, none))
    ∧ ((∀ d : Nat, 0 < d → d < 6000 → d % 20 = 0 → axleSpeed 300 (some d) false = 5000 ∧ speedClamped 300 (some d) false = true)
      ∧ axleSpeed 300 (some 6000) false = 5000 ∧ speedClamped 300 (some 6000) false = false
      ∧ (∀ spacing d : Nat, 100 ≤ spacing → spacing ≤ 600 → 0 < d → d ≤ 10000000 → 50 ≤ spacing * 100000 / d → spacing * 100000 / d ≤ 5000 →
          axleSpeed spacing (some d) false = spacing * 100000 / d)
      ∧ (∀ (spacing d : Nat), spacing * 100000 / d < 50 ∨ 10000000 < d → axleSpeed spacing (some d) false = 0)
      ∧ (∀ (spacing : Nat) (delta : Option Nat), axleSpeed spacing delta true = 0 ∧ axleSpeed spacing none false = 0)
      ∧ (∀ (distance warning maxDelay : Nat), axleDelay distance 0 warning maxDelay = 0)
      ∧ ∀ (distance v warning maxDelay : Nat), 0 < v →
          axleDelay distance v warning maxDelay % 100 = 0 ∧ axleDelay distance v warning maxDelay ≤ maxDelay
            ∧ axleDelay distance v warning maxDelay ≤ distance * 100000 / v - warning
            ∧ min (distance * 100000 / v - warning) maxDelay < axleDelay distance v warning maxDelay + 100)

/-- The timers of a detection point. FIRST_COVER_AGED (R14): a recogniser whose first cover has come to lie 10 s in the past sets its no-speed mark
and takes its first-cover time as 10 s before now from then on. CALIBRATION_TIMER_EXPIRY makes a sweep due once the timer has run for the interval
(R8); DUE_SWEEP_START starts a due sweep as PERIODIC from code 0 of the nearer head where the DP is WORKING, its recogniser IDLE and every section it
bounds CLEAR (R7, R9). Nothing else changes. That the nearer head's pending run is emptied at the start of its sweep is log 50, the model's choice. -/
def Obligations.DpTimersAgeCoversAndStartSweeps : Prop :=
  (∀ (dt : Nat) (slot : Slot) (s : State) (u : DpUnit), s.powered = true → dpAt s slot = some u → u.recog.state ≠ .idle → u.recog.aged = false →
      10000000 ≤ ((advance dt s).clock.us - u.recog.firstCover).toNat →
      ∃ t, exec (.firstCoverAged dt slot) s = .next t
        ∧ Concluded (putDp { u with recog := { u.recog with aged := true, noSpeed := true } } (advance dt s)) t)
    ∧ (∀ (dt : Nat) (slot : Slot) (s : State) (u : DpUnit), s.powered = true → dpAt s slot = some u →
      (∀ c : Time, u.calStart = some c → s.cfg.timing.calInterval * 60000 ≤ ((advance dt s).clock.ms - c).toNat →
          ∃ t, exec (.calibrationTimerExpiry dt slot) s = .next t ∧ Concluded (putDp { u with calStart := none, due := true } (advance dt s)) t)
        ∧ (u.due = true → u.state = .working → u.recog.state = .idle → (∀ i ∈ boundedBy u.id, ∃ r, sectAt s i = some r ∧ r.state = .clear) →
            ∃ t, exec (.dueSweepStart dt slot) s = .next t
              ∧ Concluded (putDp { u.mapHead (fun h => { h with run := 0 }) u.nearer with
                  due := false, state := .calibrating,
                  sweep := some { kind := .periodic, onOther := false, trial := 0, windowStart := (advance dt s).clock.us, waiting := false,
                                  abandons := 0, wasDue := true, nearResult := none } } (advance dt s)) t))

/-- HEAD_SUPPLY_CHECK while both heads are NORMAL (R6, R18, R53): a good reading empties the count of bad ones, a bad reading that is not the
third raises it; the third consecutive bad one of a WORKING DP makes the head OPEN_CIRCUIT or SHORTED, the DP FAULTED with the SUPPLY cause and
DP_FAULTED standing, and, outside declared lockout (R190), every section it bounds DISTURBED. The tenth consecutive good reading of a head that is
not NORMAL makes it NORMAL, not one before (R6), and a DP without another cause is then WORKING with its recogniser reloaded from its levels (R17,
R19). A supply fault ends a running sweep that is no START sweep (R8, R10, R13): the DP is FAULTED, its thresholds and levels stay, its sweep
stays due and a CALIBRATE that waits has its reply. -/
def Obligations.SupplyReadingsFaultTheDp : Prop :=
  (∀ (dt : Nat) (slot : Slot) (p : HeadPos) (mA : Nat) (levels : Levels) (s : State) (u : DpUnit), s.powered = true → s.join.state ≠ .calibrating →
      dpAt s slot = some u → u.first.supply = .normal → u.second.supply = .normal →
      (s.cfg.headBand.low ≤ mA → mA ≤ s.cfg.headBand.high → ∃ t, exec (.headSupplyCheck dt slot p mA levels) s = .next t
          ∧ Concluded (putDp { u.mapHead (fun h => { h with bad := 0 }) p with supplyCause := false } (advance dt s)) t)
        ∧ (mA < s.cfg.headBand.low ∨ s.cfg.headBand.high < mA → (u.head p).bad < 2 →
            ∃ t, exec (.headSupplyCheck dt slot p mA levels) s = .next t
              ∧ Concluded (putDp { u.mapHead (fun h => { h with bad := h.bad + 1, good := 0 }) p with supplyCause := false } (advance dt s)) t))
    ∧ (∀ (dt : Nat) (slot : Slot) (p : HeadPos) (mA : Nat) (levels : Levels) (s : State) (u : DpUnit), s.powered = true → s.join.state ≠ .calibrating →
      dpAt s slot = some u → u.first.supply = .normal → u.second.supply = .normal → u.state = .working → u.sweep = none → (u.head p).bad = 2 →
      mA < s.cfg.headBand.low ∨ s.cfg.headBand.high < mA → s.conds.length ≤ 20 → declaredLockout s = false →
      ∃ t v, exec (.headSupplyCheck dt slot p mA levels) s = .next t ∧ dpAt t slot = some v ∧ v.state = .faulted ∧ v.supplyCause = true
        ∧ (v.head p).supply = (if mA < s.cfg.headBand.low then .openCircuit else .shorted) ∧ hasCond t (condOf .dpFaulted u.id 0) = true
        ∧ ∀ r ∈ t.sections, r.id ∈ boundedBy u.id → r.state = .disturbed)
    ∧ (∀ (dt : Nat) (slot : Slot) (p : HeadPos) (mA : Nat) (levels : Levels) (s : State) (u : DpUnit), s.powered = true → s.join.state ≠ .calibrating →
      dpAt s slot = some u → (u.head p).supply ≠ .normal → (u.head (otherHead p)).supply = .normal → s.cfg.headBand.low ≤ mA → mA ≤ s.cfg.headBand.high →
      ((u.head p).good < 9 → ∃ t, exec (.headSupplyCheck dt slot p mA levels) s = .next t
          ∧ Concluded (putDp { u.mapHead (fun h => { h with good := h.good + 1, bad := 0 }) p with supplyCause := true } (advance dt s)) t)
        ∧ (9 ≤ (u.head p).good → u.state = .faulted → u.thresholdCause = false → u.unorderedCause = false →
            ∃ t v, exec (.headSupplyCheck dt slot p mA levels) s = .next t ∧ dpAt t slot = some v ∧ v.state = .working ∧ v.supplyCause = false
              ∧ (v.head p).supply = .normal ∧ v.recog = Recog.reload (advance dt s).clock.us u.nearSecond u.first.covered u.second.covered
              ∧ v.due = u.due ∧ hasCond t (condOf .dpFaulted u.id 0) = false))
    ∧ (∀ (dt : Nat) (slot : Slot) (p : HeadPos) (mA : Nat) (levels : Levels) (s : State) (u : DpUnit) (w : Sweep), s.powered = true →
      s.join.state ≠ .calibrating → dpAt s slot = some u → u.first.supply = .normal → u.second.supply = .normal → u.state = .calibrating →
      u.sweep = some w → w.kind ≠ .start → (u.head p).bad = 2 → mA < s.cfg.headBand.low ∨ s.cfg.headBand.high < mA → s.conds.length ≤ 20 →
      ∃ t v, exec (.headSupplyCheck dt slot p mA levels) s = .next t ∧ dpAt t slot = some v ∧ v.state = .faulted ∧ v.supplyCause = true ∧ v.sweep = none
        ∧ (∀ q : HeadPos, (v.head q).threshold = (u.head q).threshold ∧ (v.head q).covered = (u.head q).covered)
        ∧ v.due = (u.due || decide (w.kind = .periodic) || w.wasDue) ∧ hasCond t (condOf .dpFaulted u.id 0) = true
        ∧ (w.kind = .commanded ∨ w.kind = .recovery → t.port.reply = some (done (if w.onOther then Content.sweep (w.nearResult.getD .notRun) .abandoned
            else Content.sweep .abandoned .notRun))))

/-- PROBE_WINDOW_END (R9, R10): where every sample of the window read CLEAR and codes are left, the trial code rises by one and the next window
begins. At the boundary of the head swept first, a candidate of boundary less margin that is at least 4 and within 12 of the previous threshold
becomes the working threshold and clears CALIBRATION_FAILED; one below 4 (TOO_LOW), one further than 12 from it (OUT_OF_WINDOW) and code 63
without a boundary (NO_BOUNDARY) are refused, leave the threshold and raise CALIBRATION_FAILED; the sweep goes on to the other head either way. A
START sweep that waits (R12) goes on waiting while the nearer head reads COVERED and sweeps the second head again from code 0 after a window
without. Each further window of a head begins where the one before it was due to end, while the other head's first window begins at the time of
the command that gives the first head its result; the two differ only for a command that comes late, and both are log 1; that a candidate both
below 4 and outside the window is TOO_LOW is log 71; the model's choices. -/
def Obligations.ProbeWindowsFindTheBoundary : Prop :=
  (∀ (dt : Nat) (slot : Slot) (lowest : Nat) (levels : Levels) (s : State) (u : DpUnit) (w : Sweep), s.powered = true → dpAt s slot = some u →
      u.sweep = some w → w.waiting = false → reached (advance dt s).clock.us w.windowStart = true →
      5000 ≤ ((advance dt s).clock.us - w.windowStart).toNat → w.trial ≤ lowest → w.trial < 63 → s.join.state ≠ .calibrating ∨ w.kind = .start →
      ∃ t, exec (.probeWindowEnd dt slot lowest levels) s = .next t
        ∧ Concluded (putDp { u with sweep := some { w with trial := w.trial + 1, windowStart := later w.windowStart 5000 } } (advance dt s)) t)
    ∧ (∀ (dt : Nat) (slot : Slot) (lowest : Nat) (levels : Levels) (s : State) (u : DpUnit) (w : Sweep), s.powered = true → dpAt s slot = some u →
      u.sweep = some w → w.waiting = false → w.onOther = false → reached (advance dt s).clock.us w.windowStart = true →
      5000 ≤ ((advance dt s).clock.us - w.windowStart).toNat → lowest < w.trial → s.join.state ≠ .calibrating ∨ w.kind = .start →
      (s.cfg.timing.calMargin + 4 ≤ w.trial →
          (∀ q : Nat, (u.head u.nearer).threshold = some q → w.trial ≤ q + 12 + s.cfg.timing.calMargin ∧ q + s.cfg.timing.calMargin ≤ w.trial + 12) →
          ∃ t v, exec (.probeWindowEnd dt slot lowest levels) s = .next t ∧ dpAt t slot = some v
            ∧ (v.head u.nearer).threshold = some (w.trial - s.cfg.timing.calMargin)
            ∧ v.sweep = some { w with onOther := true, trial := 0, windowStart := (advance dt s).clock.us,
                                      nearResult := some (.accepted (w.trial - s.cfg.timing.calMargin)) }
            ∧ hasCond t (condOf .calibrationFailed u.id (headItem u.nearer)) = false)
        ∧ (w.trial < s.cfg.timing.calMargin + 4 → s.conds.length < 31 →
            ∃ t v, exec (.probeWindowEnd dt slot lowest levels) s = .next t ∧ dpAt t slot = some v
              ∧ (v.head u.nearer).threshold = (u.head u.nearer).threshold
              ∧ v.sweep = some { w with onOther := true, trial := 0, windowStart := (advance dt s).clock.us, nearResult := some (.refused .tooLow) }
              ∧ hasCond t (condOf .calibrationFailed u.id (headItem u.nearer)) = true)
        ∧ (∀ q : Nat, s.cfg.timing.calMargin + 4 ≤ w.trial → (u.head u.nearer).threshold = some q →
            q + 12 + s.cfg.timing.calMargin < w.trial ∨ w.trial + 12 < q + s.cfg.timing.calMargin → s.conds.length < 31 →
            ∃ t v, exec (.probeWindowEnd dt slot lowest levels) s = .next t ∧ dpAt t slot = some v ∧ (v.head u.nearer).threshold = some q
              ∧ v.sweep = some { w with onOther := true, trial := 0, windowStart := (advance dt s).clock.us, nearResult := some (.refused .outOfWindow) }
              ∧ hasCond t (condOf .calibrationFailed u.id (headItem u.nearer)) = true))
    ∧ (∀ (dt : Nat) (slot : Slot) (lowest : Nat) (levels : Levels) (s : State) (u : DpUnit) (w : Sweep), s.powered = true → dpAt s slot = some u →
      u.sweep = some w → w.waiting = false → w.onOther = false → reached (advance dt s).clock.us w.windowStart = true →
      5000 ≤ ((advance dt s).clock.us - w.windowStart).toNat → w.trial = 63 → 63 ≤ lowest → s.join.state ≠ .calibrating ∨ w.kind = .start →
      s.conds.length < 31 →
      ∃ t v, exec (.probeWindowEnd dt slot lowest levels) s = .next t ∧ dpAt t slot = some v
        ∧ (v.head u.nearer).threshold = (u.head u.nearer).threshold
        ∧ v.sweep = some { w with onOther := true, trial := 0, windowStart := (advance dt s).clock.us, nearResult := some (.refused .noBoundary) }
        ∧ hasCond t (condOf .calibrationFailed u.id (headItem u.nearer)) = true)
    ∧ (∀ (dt : Nat) (slot : Slot) (lowest th : Nat) (levels : Levels) (s : State) (u : DpUnit) (w : Sweep), s.powered = true → dpAt s slot = some u →
      u.sweep = some w → w.waiting = true → w.kind = .start → reached (advance dt s).clock.us w.windowStart = true →
      5000 ≤ ((advance dt s).clock.us - w.windowStart).toNat → (u.head u.nearer).threshold = some th →
      (lowest < th → ∃ t, exec (.probeWindowEnd dt slot lowest levels) s = .next t
          ∧ Concluded (putDp { u with sweep := some { w with windowStart := later w.windowStart 5000 } } (advance dt s)) t)
        ∧ (th ≤ lowest → ∃ t, exec (.probeWindowEnd dt slot lowest levels) s = .next t
          ∧ Concluded (putDp { u with sweep := some { w with waiting := false, trial := 0, windowStart := later w.windowStart 5000 } } (advance dt s)) t))

/-- The end of a sweep other than START whose second head is accepted (R8, R10, R13, R17, R19): the threshold is set, a DP without another cause is
WORKING with its recogniser reloaded from the levels, its timer starts afresh, and a CALIBRATE that waits has its reply. The end of a START sweep
whose second head is accepted (R8, R12, R17, R19): both heads take their first levels, the recogniser is loaded from them, the DP is WORKING, its
timer starts, and a station whose last START sweep it was leaves CALIBRATING for HAILING (R87). The operand `levels` gives the raw levels of the
moment (log 39, the model's choice). -/
def Obligations.SweepEndReturnsTheDpToWorking : Prop :=
  (∀ (dt : Nat) (slot : Slot) (lowest : Nat) (levels : Levels) (s : State) (u : DpUnit) (w : Sweep) (n : Nat), s.powered = true → dpAt s slot = some u →
    u.sweep = some w → w.kind ≠ .start → w.waiting = false → w.onOther = true → reached (advance dt s).clock.us w.windowStart = true →
    5000 ≤ ((advance dt s).clock.us - w.windowStart).toNat → lowest < w.trial → s.join.state ≠ .calibrating → n + s.cfg.timing.calMargin = w.trial → 4 ≤ n →
    (∀ q : Nat, (u.head (otherHead u.nearer)).threshold = some q → n ≤ q + 12 ∧ q ≤ n + 12) → (u.head u.nearer).threshold.isSome = true →
    u.state = .calibrating → u.supplyCause = false → u.unorderedCause = false → s.cfg.timing.calInterval ≠ 0 →
    ∃ t v, exec (.probeWindowEnd dt slot lowest levels) s = .next t ∧ dpAt t slot = some v ∧ v.state = .working ∧ v.sweep = none
      ∧ (v.head (otherHead u.nearer)).threshold = some n
      ∧ (v.head (otherHead u.nearer)).covered = decide (levelAt levels (otherHead u.nearer) < n)
      ∧ v.recog = Recog.reload (advance dt s).clock.us u.nearSecond v.first.covered v.second.covered
      ∧ v.calStart = some (advance dt s).clock.ms
      ∧ (w.kind = .commanded ∨ w.kind = .recovery →
          t.port.reply = some (done (Content.sweep (w.nearResult.getD .notRun) (.accepted n)))))
    ∧ ∀ (dt : Nat) (slot : Slot) (lowest : Nat) (levels : Levels) (s : State) (u : DpUnit) (w : Sweep) (n m : Nat), s.powered = true →
      dpAt s slot = some u → u.sweep = some w → w.kind = .start → w.waiting = false → w.onOther = true →
      reached (advance dt s).clock.us w.windowStart = true → 5000 ≤ ((advance dt s).clock.us - w.windowStart).toNat → lowest < w.trial →
      n + s.cfg.timing.calMargin = w.trial → 4 ≤ n →
      (∀ q : Nat, (u.head (otherHead u.nearer)).threshold = some q → n ≤ q + 12 ∧ q ≤ n + 12) → (u.head u.nearer).threshold = some m →
      u.state = .calibrating → u.supplyCause = false → u.unorderedCause = false → s.cfg.timing.calInterval ≠ 0 →
      ∃ t v, exec (.probeWindowEnd dt slot lowest levels) s = .next t ∧ dpAt t slot = some v ∧ v.state = .working ∧ v.sweep = none
        ∧ (v.head (otherHead u.nearer)).threshold = some n ∧ (v.head u.nearer).threshold = some m
        ∧ (v.head (otherHead u.nearer)).covered = decide (levelAt levels (otherHead u.nearer) < n)
        ∧ (v.head u.nearer).covered = decide (levelAt levels u.nearer < m) ∧ v.first.levelTaken = true ∧ v.second.levelTaken = true
        ∧ v.recog = Recog.reload (advance dt s).clock.us u.nearSecond v.first.covered v.second.covered
        ∧ v.calStart = some (advance dt s).clock.ms
        ∧ (s.dps = [u] → s.join.state = .calibrating → t.join.state = .hailing)

/-- SWEEP_ABANDONED (R8, R11, R12, R13): a COVERED sample of the watched head abandons the sweep and sets the CAL_ABANDONED latch. A PERIODIC or
COMMANDED sweep ends with the swept head's previous threshold, its DP WORKING and the sweep due again; the second head of a START sweep waits,
until its third abandonment. The covered sample is given with the command (log 42), and the first window of the wait begins at its time (log 1),
the model's choices. -/
def Obligations.WatchedHeadAbandonsTheSweep : Prop :=
  ∀ (dt : Nat) (slot : Slot) (level th : Nat) (levels : Levels) (s : State) (u : DpUnit) (w : Sweep) (p : HeadPos), s.powered = true →
    dpAt s slot = some u → u.sweep = some w → w.waiting = false → p = (if w.onOther then otherHead u.nearer else u.nearer) →
    (u.head (otherHead p)).threshold = some th → level < th →
    ((w.kind = .periodic ∨ w.kind = .commanded) → u.state = .calibrating → u.supplyCause = false → u.thresholdCause = false → u.unorderedCause = false →
        ∃ t v, exec (.sweepAbandoned dt slot (.watchedHead level) levels) s = .next t ∧ t.latches.calAbandoned = true ∧ dpAt t slot = some v
          ∧ v.sweep = none ∧ v.due = true ∧ v.state = .working ∧ (v.head p).threshold = (u.head p).threshold
          ∧ (w.kind = .commanded → t.port.reply = some (done (if w.onOther then Content.sweep (w.nearResult.getD .notRun) .abandoned
              else Content.sweep .abandoned .notRun))))
      ∧ (w.kind = .start → w.onOther = true → w.abandons < 2 →
          ∃ t, exec (.sweepAbandoned dt slot (.watchedHead level) levels) s = .next t
            ∧ Concluded (setLatch .calAbandoned (putDp { u with
                sweep := some { w with abandons := w.abandons + 1, waiting := true, trial := 0, windowStart := (advance dt s).clock.us } }
                (advance dt s))) t)

/-! ### Sections, times, conditions: rules over one operation (chapters 02, 03, 07, 10) -/

/-- R30: station times are compared modulo 2^32. -/
def Obligations.TimesCompareModulo2To32 : Prop :=
  ∀ x y : Time, (earlier x y = true ↔ 0 < (y.toNat + 2 ^ 32 - x.toNat) % 2 ^ 32 ∧ (y.toNat + 2 ^ 32 - x.toNat) % 2 ^ 32 < 2 ^ 31)
    ∧ (reached x y = true ↔ y = x ∨ earlier y x = true)

/-- R43: what an inward and an outward axle at each DP brings to the records on its two sides: entries at the far end of an approach section, entries
at its near end or into the island, and axles out; an outer DP bounds one record, an inner DP two. -/
def Obligations.AxlesMoveBetweenTheTwoSides : Prop :=
  ∀ k : Nat, k < 2 →
    (boundedBy (4 * k) = [3 * k] ∧ movesOf (4 * k) (3 * k) 1 0 = { far := 1, near := 0, outs := 0 }
        ∧ movesOf (4 * k) (3 * k) 0 1 = { far := 0, near := 0, outs := 1 })
      ∧ (boundedBy (4 * k + 1) = [3 * k, 3 * k + 1] ∧ movesOf (4 * k + 1) (3 * k) 1 0 = { far := 0, near := 0, outs := 1 }
        ∧ movesOf (4 * k + 1) (3 * k + 1) 1 0 = { far := 0, near := 1, outs := 0 }
        ∧ movesOf (4 * k + 1) (3 * k + 1) 0 1 = { far := 0, near := 0, outs := 1 }
        ∧ movesOf (4 * k + 1) (3 * k) 0 1 = { far := 0, near := 1, outs := 0 })
      ∧ (boundedBy (4 * k + 2) = [3 * k + 1, 3 * k + 2] ∧ movesOf (4 * k + 2) (3 * k + 2) 1 0 = { far := 0, near := 0, outs := 1 }
        ∧ movesOf (4 * k + 2) (3 * k + 1) 1 0 = { far := 0, near := 1, outs := 0 }
        ∧ movesOf (4 * k + 2) (3 * k + 1) 0 1 = { far := 0, near := 0, outs := 1 }
        ∧ movesOf (4 * k + 2) (3 * k + 2) 0 1 = { far := 0, near := 1, outs := 0 })
      ∧ (boundedBy (4 * k + 3) = [3 * k + 2] ∧ movesOf (4 * k + 3) (3 * k + 2) 1 0 = { far := 1, near := 0, outs := 0 }
        ∧ movesOf (4 * k + 3) (3 * k + 2) 0 1 = { far := 0, near := 0, outs := 1 })

/-- Counts at a record (R46, R49, R50): in-counts first, then out-counts, within 0 to 4095; beyond a bound the balance stays at it and the section is
DISTURBED; within them a CLEAR or OCCUPIED record is OCCUPIED while its balance is above 0 and CLEAR at 0, its deadline, t0, strike axles, held
flag and tag then removed. A RESTORING record counts its sweep axles up to the minimum and becomes CLEAR only where an out-count brings it to 0
with the minimum reached and both bounding DPs usable (R57); counts move the underlying state of an UNKNOWN record, which stays UNKNOWN (R55); a
DISTURBED record, and an UNKNOWN one without an underlying state, apply none. A frame of one DP (R45, R47, R48): a first hearing sets the baseline
alone, another epoch makes the record UNKNOWN without an underlying state, a difference above 1000 makes it DISTURBED, and neither touches the
balance or leaves DISTURBED. The return of the last awaited owner gives the record its underlying state back, with a deadline where it is
approaching (R56). -/
def Obligations.CountsMoveTheBalance : Prop :=
  (∀ (minSweep : Nat) (usable : Bool) (m : Moves) (r : Sect), r.state = .clear ∨ r.state = .occupied → 0 < m.far + m.near + m.outs →
    (4095 < r.balance + m.far + m.near → (r.count minSweep usable m).state = .disturbed ∧ (r.count minSweep usable m).balance = 4095)
      ∧ (r.balance + m.far + m.near ≤ 4095 → r.balance + m.far + m.near < m.outs →
          (r.count minSweep usable m).state = .disturbed ∧ (r.count minSweep usable m).balance = 0)
      ∧ (r.balance + m.far + m.near ≤ 4095 → m.outs < r.balance + m.far + m.near →
          (r.count minSweep usable m).state = .occupied ∧ (r.count minSweep usable m).balance + m.outs = r.balance + m.far + m.near
            ∧ (r.count minSweep usable m).deadline = r.deadline)
      ∧ (r.balance + m.far + m.near ≤ 4095 → m.outs = r.balance + m.far + m.near →
          (r.count minSweep usable m).state = .clear ∧ (r.count minSweep usable m).balance = 0 ∧ (r.count minSweep usable m).tag = none
            ∧ (r.count minSweep usable m).deadline = none ∧ (r.count minSweep usable m).t0 = none ∧ (r.count minSweep usable m).strikes = 0
            ∧ (r.count minSweep usable m).held = false))
    ∧ (∀ (minSweep : Nat) (usable : Bool) (m : Moves) (r q : Sect), q = r.count minSweep usable m → 0 < m.far + m.near + m.outs →
      (r.state = .restoring ∨ (r.state = .unknown ∧ r.underlying.isSome = true) →
          (4095 < r.balance + m.far + m.near → q.state = .disturbed ∧ q.balance = 4095 ∧ q.underlying = none)
            ∧ (r.balance + m.far + m.near ≤ 4095 → r.balance + m.far + m.near < m.outs → q.state = .disturbed ∧ q.balance = 0 ∧ q.underlying = none))
        ∧ (r.balance + m.far + m.near ≤ 4095 → m.outs ≤ r.balance + m.far + m.near →
          (r.state = .restoring → q.balance + m.outs = r.balance + m.far + m.near
              ∧ (q.balance = 0 → 0 < m.outs → minSweep ≤ r.sweepAxles + m.far + m.near → usable = true →
                  q.state = .clear ∧ q.sweepAxles = 0 ∧ q.t0 = none ∧ q.strikes = 0)
              ∧ (q.balance ≠ 0 ∨ m.outs = 0 ∨ r.sweepAxles + m.far + m.near < minSweep ∨ usable = false →
                  q.state = .restoring ∧ q.sweepAxles = min (r.sweepAxles + m.far + m.near) minSweep ∧ q.tag = r.tag ∧ q.deadline = r.deadline))
            ∧ (r.state = .unknown → r.underlying = some .restoring → q.state = .unknown ∧ q.underlying = some .restoring
                ∧ q.balance + m.outs = r.balance + m.far + m.near ∧ q.sweepAxles = min (r.sweepAxles + m.far + m.near) minSweep)
            ∧ (r.state = .unknown → r.underlying = some .clear ∨ r.underlying = some .occupied → q.state = .unknown
                ∧ q.underlying = some (if q.balance = 0 then .clear else .occupied) ∧ q.balance + m.outs = r.balance + m.far + m.near
                ∧ (q.balance = 0 → q.tag = none ∧ q.deadline = none ∧ q.t0 = none ∧ q.strikes = 0)))
        ∧ (r.state = .disturbed ∨ (r.state = .unknown ∧ r.underlying = none) → q = r))
    ∧ (∀ (now : Time) (minSweep : Nat) (usable : Bool) (d : DpCounts) (r q : Sect), q = r.applyFrame now minSweep usable [d] →
      q.base d.dp = some d.counts ∧ q.id = r.id
        ∧ (r.base d.dp = none → q.state = r.state ∧ q.balance = r.balance ∧ q.underlying = r.underlying ∧ q.tag = r.tag ∧ q.deadline = r.deadline)
        ∧ (∀ c : Counts, r.base d.dp = some c → c.epoch ≠ d.counts.epoch →
            q.state = (if r.state = .disturbed then .disturbed else .unknown) ∧ (r.state ≠ .disturbed → q.underlying = none ∧ q.awaited = [])
              ∧ q.balance = r.balance)
        ∧ (∀ c : Counts, r.base d.dp = some c → c.epoch = d.counts.epoch → 1000 < (d.counts.inn - c.inn).toNat ∨ 1000 < (d.counts.out - c.out).toNat →
            q.state = .disturbed ∧ q.balance = r.balance))
    ∧ ∀ (now : Time) (n : Nat) (r : Sect) (u : SectState), r.state = .unknown → r.underlying = some u →
      (∀ x ∈ r.awaited, x = n) →
      (r.returnOwner now n).state = u ∧ (r.returnOwner now n).underlying = none ∧ (r.returnOwner now n).awaited = []
        ∧ (r.returnOwner now n).balance = r.balance ∧ (r.returnOwner now n).tag = r.tag ∧ (r.returnOwner now n).sweepAxles = r.sweepAxles
        ∧ ((r.returnOwner now n).approaching = true → r.deadline = none → (r.returnOwner now n).deadline = some now)
        ∧ ((r.returnOwner now n).approaching = true → ∀ d : Time, r.deadline = some d →
            (r.returnOwner now n).deadline = some (if earlier now d then now else d))

/-- R130: the wait conditions read the barrier states as they stand. -/
def Obligations.WaitConditionsReadTheBarriers : Prop :=
  ∀ s : State,
    waitHolds s .none = true
      ∧ (waitHolds s .ownDown = true ↔ s.barrier.state = .down)
      ∧ (waitHolds s .ownUp = true ↔ s.barrier.state = .up)
      ∧ (waitHolds s .allDown = true ↔ ∀ n ∈ posts s, (n = s.cfg.own ∧ s.barrier.state = .down)
          ∨ (n ≠ s.cfg.own ∧ ∃ p r, peerAt s n = some p ∧ p.post = some r ∧ r.barrier = .down))
      ∧ (waitHolds s .allUp = true ↔ ∀ n ∈ posts s, (n = s.cfg.own ∧ s.barrier.state = .up)
          ∨ (n ≠ s.cfg.own ∧ ∃ p r, peerAt s n = some p ∧ p.post = some r ∧ r.barrier = .up))
      ∧ (posts s = [s.cfg.own] → waitHolds s .allDown = waitHolds s .ownDown ∧ waitHolds s .allUp = waitHolds s .ownUp)

/-- R173: conditions rank by class, then kind number, then subject number, then item, each taken lower first, and two of one rank are one condition.
The notice list follows the present set (R178, R180, R181): where it has room, a pair that appears without an entry enters RAISED and
change-pending, one that appears with a CLEARED or GONE entry makes it RAISED, one that disappears makes a RAISED entry CLEARED and an ACKED one
GONE, each change-pending, and every other entry stays. A newcomer to a full list takes the place of the last entry where it ranks higher, does
not enter otherwise, and sets the saturated flag either way (R180). A condition raised or cleared brings the present set up to date (R176). -/
def Obligations.ConditionsRankByClassKindSubjectItem : Prop :=
  (∀ c d : CondId,
    (c.rank < d.rank ↔ c.kind.cls < d.kind.cls ∨ (c.kind.cls = d.kind.cls ∧ (c.kind.num < d.kind.num
      ∨ (c.kind.num = d.kind.num ∧ (c.subject.val < d.subject.val ∨ (c.subject.val = d.subject.val ∧ c.item.val < d.item.val))))))
      ∧ (c.rank = d.rank → c = d))
    ∧ (∀ (s : State) (c : CondId), s.notices.kept = true → NoticeLaw s → s.notices.entries.length + (presentSet s).length ≤ 16 →
      (noticeSync s).notices.present = presentSet s
        ∧ (c ∈ presentSet s → c ∉ s.notices.present →
            (s.notices.entries.find? (fun n => n.id == c) = none →
                (noticeSync s).notices.entries.find? (fun n => n.id == c) = some { id := c, state := .raised, pend := true })
              ∧ (∀ e : Notice, s.notices.entries.find? (fun n => n.id == c) = some e →
                (noticeSync s).notices.entries.find? (fun n => n.id == c)
                  = some (if e.state = .cleared ∨ e.state = .gone then { e with state := .raised, pend := true } else e)))
        ∧ (c ∉ presentSet s → c ∈ s.notices.present → ∀ e : Notice, s.notices.entries.find? (fun n => n.id == c) = some e →
            (noticeSync s).notices.entries.find? (fun n => n.id == c)
              = some (if e.state = .raised then { e with state := .cleared, pend := true }
                  else if e.state = .acked then { e with state := .gone, pend := true } else e))
        ∧ ((c ∈ presentSet s ↔ c ∈ s.notices.present) →
            (noticeSync s).notices.entries.find? (fun n => n.id == c) = s.notices.entries.find? (fun n => n.id == c)))
    ∧ (∀ (u : NoticeUnit) (c : CondId) (front : List Notice) (last : Notice), u.entries = front ++ [last] → u.entries.length = 16 →
      hasNotice u.entries c = false → rankedFrom 0 (u.entries.map (·.id)) = true →
      (u.newcomer c).saturated = true ∧ (u.newcomer c).entries.length = 16 ∧ (u.newcomer c).present = u.present
        ∧ (last.id.rank < c.rank → (u.newcomer c).entries = u.entries)
        ∧ (c.rank < last.id.rank →
            ∀ n : Notice, n ∈ (u.newcomer c).entries ↔ n ∈ front ∨ n = { id := c, state := .raised, pend := true }))
    ∧ ∀ (s : State) (c : CondId), s.notices.kept = true → s.notices.present = presentSet s →
        (raiseCond c s).notices.present = presentSet (raiseCond c s) ∧ (clearCond c s).notices.present = presentSet (clearCond c s)

/-! ### The phase and the sequencer (chapters 06 and 07) -/

/-- DEADLINE_EXPIRY in OPEN or OPENING without failure demand (R33, R113, R114) completes in every state, whatever the sequencer holds: the phase
moves to CLOSING, or on to CLOSED, and the section table stays as it is. In a state that keeps the law of the sequencer (`SeqLaw`: R126, R127,
R137) the phase is CLOSED only with every post reporting DOWN. -/
def Obligations.DeadlineExpiryClosesTheCrossing : Prop :=
  ∀ (dt sec : Nat) (s : State) (r : Sect) (d : Time), s.powered = true → s.phase.phase = .opened ∨ s.phase.phase = .opening → failureDemand s = false →
    sectAt s sec = some r → r.approaching = true → r.held = false → r.deadline = some d → reached (advance dt s).clock.ms d = true →
    ∃ t, exec (.deadlineExpiry dt sec) s = .next t ∧ (t.phase.phase = .closing ∨ t.phase.phase = .closed)
      ∧ (SeqLaw s → t.phase.phase = .closed → allDown t = true) ∧ t.sections = s.sections

/-- The release (R58, R120, R121), at RELEASE_TIMER_EXPIRY or at STANDING_TEST_TIME: where every source of closing demand is a standing train,
each of those sections is held, its deadline is removed and LONG_CLOSURE stands for it; and where no other deadline is near, the crossing opens.
That a reached deadline is a source of demand before its expiry has been reported is log 76, the model's choice. -/
def Obligations.StandingTrainsAreReleased : Prop :=
  ∀ (dt sec : Nat) (c : Instr) (s : State) (st : Time), s.powered = true → s.phase.phase = .closed → failureDemand s = false → islandsClear s = true →
    (c = .releaseTimerExpiry dt ∧ s.phase.releaseStart = some st ∧ s.cfg.timing.maxClosed * 1000 ≤ ((advance dt s).clock.ms - st).toNat)
      ∨ (c = .standingTestTime dt sec ∧ s.phase.releaseExpired = true ∧ (sec, st) ∈ s.phase.standing ∧ reached (advance dt s).clock.ms st = true) →
    (∃ r ∈ s.sections, r.demands (advance dt s).clock.ms = true) →
    (∀ r ∈ s.sections, r.demands (advance dt s).clock.ms = true → r.standing (advance dt s).clock.ms s.cfg.timing.warningTime = true) →
    (s.sections.map (·.id)).Nodup → s.sections.length ≤ 6 → s.conds.length ≤ 20 →
    ∃ t, exec c s = .next t
      ∧ (∀ r ∈ s.sections, r.demands (advance dt s).clock.ms = true → ∃ q, sectAt t r.id = some q ∧ q.held = true ∧ q.deadline = none
          ∧ q.state = r.state ∧ q.balance = r.balance ∧ hasCond t (condOf .longClosure r.id 0) = true)
      ∧ ((∀ r ∈ s.sections, r.demands (advance dt s).clock.ms = false → r.deadlineNear (advance dt s).clock.ms s.cfg.timing.minOpen = false) →
          t.phase.phase = .opening ∨ t.phase.phase = .opened)

/-- DWELL_END (R128, R129, R133): where the wait condition does not hold, the wait begins at the end of the dwell; where it holds, the next step
begins with its pattern and its start time (here a step with a dwell and no barrier command), and after the last step the run ends DONE, or HALTED
where a HALT was taken. A next step with a barrier command hands it over, LOWER setting lower reached and reported to the phase unit, and a next
step with dwell 0 and no wait is passed through to the one after it in the same event. START begins the list's head step with lower reached clear,
HALT lets a run end at its step, STOP ends it at once with RELEASE handed over, and each is refused in the states its rule names (R132 to R134). A
phase entered at a post starts its wanted list, stopping another in progress, or defers it behind a CLOSE list still running (R137).
WAIT_LIMIT_EXPIRY (R131, R136): the run ends in ERROR with its list recorded, SEQUENCE_ERROR is raised, and the pattern and the barrier command
stand; the phase unit is told. A wait begins at the time the dwell was due to end (log 1, the model's choice for a command that comes late). -/
def Obligations.RunsEndAtTheirDwellsAndLimits : Prop :=
  (∀ (dt i : Nat) (s : State) (st : StepRec) (l : ListName), s.powered = true → s.seq.step = some i → s.cfg.steps[i]? = some st → s.seq.waitStart = none →
      s.seq.list = some l → st.dwell ≤ ((advance dt s).clock.ms - s.seq.stepStart).toNat →
      ((s.seq.state = .running ∨ s.seq.state = .halting) → waitHolds (advance dt s) st.waitFor = false → ∃ t, exec (.dwellEnd dt) s = .next t
          ∧ Concluded { advance dt s with seq := { s.seq with waitStart := some (later s.seq.stepStart st.dwell) } } t)
        ∧ (s.seq.state = .running → waitHolds (advance dt s) st.waitFor = true → ∀ (j : Nat) (st' : StepRec), st.next = some j → s.cfg.steps[j]? = some st' →
            st'.barrier = .none → 0 < st'.dwell → ∃ t, exec (.dwellEnd dt) s = .next t
              ∧ Concluded (applyPattern st'.amber st'.red
                  { advance dt s with seq := { s.seq with step := some j, stepStart := (advance dt s).clock.ms, waitStart := none } }) t)
        ∧ (s.seq.state = .running → waitHolds (advance dt s) st.waitFor = true → st.next = none → ∃ t, exec (.dwellEnd dt) s = .next t
            ∧ Handled (advance dt s) (clearCond (condOf .sequenceError s.cfg.own 0)
                { advance dt s with seq := { s.seq with state := .done, waitStart := none, result := some (l, .done) } }) [.seqEnded .done] t)
        ∧ (s.seq.state = .halting → waitHolds (advance dt s) st.waitFor = true → ∃ t, exec (.dwellEnd dt) s = .next t
            ∧ Handled (advance dt s) { advance dt s with seq := { s.seq with state := .halted, waitStart := none, result := some (l, .halted) } }
                [.seqEnded .halted] t)
        ∧ (∀ (j : Nat) (st' : StepRec) (b : BarrierCmd), s.seq.state = .running → waitHolds (advance dt s) st.waitFor = true → st.next = some j →
            s.cfg.steps[j]? = some st' → 0 < st'.dwell →
            (st'.barrier = .lower ∧ b = .lower) ∨ (st'.barrier = .raise ∧ b = .raise) ∨ (st'.barrier = .release ∧ b = .release) →
            ∃ s1 sigs t, exec (.dwellEnd dt) s = .next t ∧ Handled (advance dt s) s1 sigs t ∧ s1.barrier.command = b
              ∧ s1.lights.amber = st'.amber ∧ s1.lights.red = st'.red
              ∧ s1.seq = { s.seq with step := some j, stepStart := (advance dt s).clock.ms, waitStart := none,
                                      lowerReached := s.seq.lowerReached || decide (b = .lower) }
              ∧ (b = .lower → s.seq.lowerReached = false → Sig.evaluate ∈ sigs)
              ∧ KeptBut [.seq, .lights, .barrier, .conds, .notices] (advance dt s) s1)
        ∧ (∀ (j k : Nat) (st' st'' : StepRec), s.seq.state = .running → waitHolds (advance dt s) st.waitFor = true → st.next = some j →
            s.cfg.steps[j]? = some st' → st'.barrier = .none → st'.dwell = 0 → st'.waitFor = .none → st'.next = some k → s.cfg.steps[k]? = some st'' →
            st''.barrier = .none → 0 < st''.dwell →
            ∃ s1 t, exec (.dwellEnd dt) s = .next t ∧ Concluded s1 t ∧ s1.lights.amber = st''.amber ∧ s1.lights.red = st''.red
              ∧ s1.seq = { s.seq with step := some k, stepStart := (advance dt s).clock.ms, waitStart := none }
              ∧ KeptBut [.seq, .lights, .conds, .notices] (advance dt s) s1))
    ∧ (∀ (s : State) (l : ListName) (st : StepRec),
      (s.seq.state = .running ∨ s.seq.state = .halting → seqStart l s = (s, []))
        ∧ (s.seq.state ≠ .running → s.seq.state ≠ .halting → s.cfg.steps[headOf s.cfg l]? = some st → 0 < st.dwell →
            (seqStart l s).1.seq = { s.seq with state := .running, list := some l, step := some (headOf s.cfg l), stepStart := s.clock.ms,
                                                waitStart := none, lowerReached := decide (st.barrier = .lower), result := none }
              ∧ (seqStart l s).1.lights.amber = st.amber ∧ (seqStart l s).1.lights.red = st.red
              ∧ (st.barrier = .none → (seqStart l s).1.barrier = s.barrier) ∧ (st.barrier = .lower → (seqStart l s).1.barrier.command = .lower)
              ∧ (st.barrier = .raise → (seqStart l s).1.barrier.command = .raise)
              ∧ (st.barrier = .release → (seqStart l s).1.barrier.command = .release))
        ∧ (s.seq.state = .running → seqHalt s = { s with seq := { s.seq with state := .halting } })
        ∧ (s.seq.state ≠ .running → seqHalt s = s)
        ∧ (s.seq.state = .running ∨ s.seq.state = .halting → (seqStop s).1.barrier.command = .release ∧ Sig.evaluate ∈ (seqStop s).2
            ∧ (seqStop s).1.lights = s.lights
            ∧ (seqStop s).1.seq = { s.seq with state := .stopped, waitStart := none, result := s.seq.list.map fun l => (l, .stopped) })
        ∧ (s.seq.state ≠ .running → s.seq.state ≠ .halting → seqStop s = (s, [])))
    ∧ (∀ (s : State) (w : ListName) (st : StepRec), isPost s = true →
      (s.phase.phase = .closing ∧ w = .close) ∨ (s.phase.phase = .opening ∧ w = .opn) ∨ (s.phase.phase = .failed ∧ w = .failed) →
      s.cfg.steps[headOf s.cfg w]? = some st → 0 < st.dwell →
      ((s.seq.state ≠ .running ∧ s.seq.state ≠ .halting)
          ∨ (s.seq.list ≠ some w ∧ (s.seq.list = some .close → w ≠ .failed)) ∨ (s.seq.state = .halting ∧ s.seq.list = some w ∧ w ≠ .close) →
          (seqRequests s).1.seq.state = .running ∧ (seqRequests s).1.seq.list = some w ∧ (seqRequests s).1.seq.step = some (headOf s.cfg w)
            ∧ (seqRequests s).1.phase.deferred = none)
        ∧ (s.seq.state = .running → s.seq.list = some w → (seqRequests s).1.seq = s.seq ∧ (seqRequests s).1.phase.deferred = none)
        ∧ (s.seq.state = .running ∨ s.seq.state = .halting → s.seq.list = some .close → w = .failed →
            (seqRequests s).1.seq = s.seq ∧ (seqRequests s).1.phase.deferred = some .failed)
        ∧ (s.seq.state = .halting → s.seq.list = some .close → w = .close →
            (seqRequests s).1.seq = s.seq ∧ (seqRequests s).1.phase.deferred = some .close))
    ∧ (∀ (dt i n : Nat) (s : State) (st : StepRec) (w : Time) (l : ListName), s.powered = true → s.seq.state = .running ∨ s.seq.state = .halting →
      s.seq.step = some i → s.cfg.steps[i]? = some st → st.waitLimit = some n → s.seq.waitStart = some w → n ≤ ((advance dt s).clock.ms - w).toNat →
      s.seq.list = some l → s.conds.length < 31 →
      ∃ s1 t, exec (.waitLimitExpiry dt) s = .next t ∧ Handled (advance dt s) s1 [.seqEnded .error] t
        ∧ s1.seq = { s.seq with state := .error, waitStart := none, result := some (l, .error) }
        ∧ hasCond s1 (condOf .sequenceError s.cfg.own 0) = true ∧ KeptBut [.seq, .conds, .notices] (advance dt s) s1)

/-! ### Road lights and indicators (chapters 08 and 09) -/

/-- FLASH_CYCLE_BOUNDARY at the end of a cycle (R142, R146, R163): the new cycle begins at offset 0, at up to 40 ms under a correction above 0, or
after a hold of up to 40 ms under one below 0; SLEW_LIMITED is set where more was pending; steady aspects and RED_1 of an ALTERNATE pattern are
driven, RED_2 only steady; a PROVEN indicator is driven. FLASH_HALF_POINT and CORRECTION_LENGTHEN_END (R142, R143, R146, R163): from the half point on
RED_2 of an ALTERNATE pattern is driven in place of RED_1 and no indicator is driven; at the end of a lengthened start the offset counts from 0. Each
cycle begins where the one before it was due to end (log 1, the model's choice for a command that comes late). -/
def Obligations.FlashCycleFollowsItsBoundaries : Prop :=
  (∀ (dt : Nat) (s : State) (o : Time), s.powered = true → s.flash.mode = .running o →
      s.cfg.timing.flashCycle ≤ ((advance dt s).clock.ms - o).toNat →
      ∃ t, exec (.flashCycleBoundary dt) s = .next t ∧ t.flash.second = false
        ∧ (s.flash.corr = none → t.flash.mode = .running (later o s.cfg.timing.flashCycle) ∧ t.latches = s.latches)
        ∧ (∀ e : Int, s.flash.corr = some e → t.latches.slewLimited = (s.latches.slewLimited || decide (40 < e.natAbs))
            ∧ (0 < e → t.flash.mode = .running (later o s.cfg.timing.flashCycle - BitVec.ofNat 32 (min e.toNat 40)))
            ∧ (e < 0 → t.flash.mode = .holding (later (later o s.cfg.timing.flashCycle) (min (-e).toNat 40))))
        ∧ (isPost s = true → t.lights.a0.driven = s.lights.amber ∧ t.lights.a1.driven = decide (s.lights.red ≠ .off)
            ∧ t.lights.a2.driven = decide (s.lights.red = .bothSteady))
        ∧ (∀ d : DciOut, t.dci.out0 = some d ∨ t.dci.out1 = some d → d.driven = d.proven)
        ∧ KeptBut (.lights :: .latches :: watchedParts) (advance dt s) t)
    ∧ (∀ (dt : Nat) (s : State) (o : Time), s.powered = true →
      (s.flash.mode = .running o → s.flash.second = false → s.cfg.timing.flashCycle / 2 ≤ ((advance dt s).clock.ms - o).toNat →
          ∃ t, exec (.flashHalfPoint dt) s = .next t ∧ t.flash.second = true ∧ t.flash.mode = .running o
            ∧ (isPost s = true → t.lights.a0.driven = s.lights.amber ∧ t.lights.a1.driven = decide (s.lights.red = .bothSteady)
                ∧ t.lights.a2.driven = decide (s.lights.red ≠ .off))
            ∧ (∀ d : DciOut, t.dci.out0 = some d ∨ t.dci.out1 = some d → d.driven = false)
            ∧ KeptBut (.lights :: watchedParts) (advance dt s) t)
        ∧ (s.flash.mode = .holding o → reached (advance dt s).clock.ms o = true →
            ∃ t, exec (.correctionLengthenEnd dt) s = .next t ∧ Concluded { advance dt s with flash := { s.flash with mode := .running o } } t))

/-- Lamp strings (R149): a string is OUT from its third consecutive failed result until its third consecutive good one. LAMP_HOT_SAMPLE 100 ms into a
lit interval (R147, R149, R150): both strings of the aspect take a result against its lit limits, the interval has had its sample, and ASPECT_DEGRADED
and ASPECT_FAILED stand exactly where the aspect's state after it is DEGRADED or FAILED. -/
def Obligations.LampResultsProveTheStrings : Prop :=
  (∀ l : LampString,
      (l.out = false → l.failed < 2 → LampString.result false l = { out := false, failed := l.failed + 1, good := 0 })
        ∧ (l.out = false → 2 ≤ l.failed → LampString.result false l = { out := true, failed := 0, good := 0 })
        ∧ (l.out = false → LampString.result true l = { out := false, failed := 0, good := l.good })
        ∧ (l.out = true → l.good < 2 → LampString.result true l = { out := true, failed := 0, good := l.good + 1 })
        ∧ (l.out = true → 2 ≤ l.good → LampString.result true l = { out := false, failed := 0, good := 0 })
        ∧ (l.out = true → LampString.result false l = { out := true, failed := l.failed, good := 0 }))
    ∧ (∀ (dt : Nat) (a : Aspect) (x y : Nat) (s : State) (l : Time), s.powered = true → isPost s = true → (s.lights.aspect a).driven = true →
      (s.lights.aspect a).litStart = some l → 100 ≤ ((advance dt s).clock.ms - l).toNat → s.conds.length < 31 →
      (hasCond s (condOf .aspectDegraded s.cfg.own (aspectItem a)) = decide ((s.lights.aspect a).state = .degraded)) →
      (hasCond s (condOf .aspectFailed s.cfg.own (aspectItem a)) = decide ((s.lights.aspect a).state = .failed)) →
      ∃ t, exec (.lampHotSample dt a x y) s = .next t
        ∧ t.lights.aspect a = { s.lights.aspect a with
            litStart := none,
            main := (s.lights.aspect a).main.result (decide ((s.cfg.lit a).low ≤ x ∧ x ≤ (s.cfg.lit a).high)),
            second := (s.lights.aspect a).second.result (decide ((s.cfg.lit a).low ≤ y ∧ y ≤ (s.cfg.lit a).high)) }
        ∧ (∀ b : Aspect, b ≠ a → t.lights.aspect b = s.lights.aspect b)
        ∧ hasCond t (condOf .aspectDegraded s.cfg.own (aspectItem a)) = decide ((t.lights.aspect a).state = .degraded)
        ∧ hasCond t (condOf .aspectFailed s.cfg.own (aspectItem a)) = decide ((t.lights.aspect a).state = .failed)
        ∧ KeptBut (.lights :: .conds :: watchedParts) (advance dt s) t)

/-- Cold proving of the lamps (R148): LAMP_COLD_TEST pulses every aspect that is not lit and starts the 30 s again, LAMP_TEST_SAMPLE gives the
pulsed strings their results against the test limits and leaves the others, TEST_PULSE_END ends the pulse after its 20 ms. That the results of a
pulse count at its sample is log 59, that each 30 s run from the end of the one before it, where a command comes late, log 45, the model's
choices. -/
def Obligations.ColdTestProvesTheDarkAspects : Prop :=
  ∀ (dt : Nat) (s : State), s.powered = true →
    (∀ c : Time, isPost s = true → s.lights.coldStart = some c → 30000 ≤ ((advance dt s).clock.ms - c).toNat →
        ∃ t, exec (.lampColdTest dt) s = .next t
          ∧ Concluded { advance dt s with lights := { s.lights with
              coldStart := some (later c 30000),
              pulse := if s.lights.amber ∧ s.lights.red ≠ .off then none
                else some { start := (advance dt s).clock.ms, amber := !s.lights.amber, red1 := decide (s.lights.red = .off),
                            red2 := decide (s.lights.red = .off), sampled := false } } } t)
      ∧ (∀ (p : LampPulse) (c : LampCurrents), s.lights.pulse = some p → p.sampled = false → 15 ≤ ((advance dt s).clock.ms - p.start).toNat →
          ∃ t, exec (.lampTestSample dt c) s = .next t
            ∧ t.lights.pulse = some { p with sampled := true }
            ∧ t.lights.a0.main = (if p.amber then s.lights.a0.main.result (withinLimits s.cfg.amberTest c.amberMain) else s.lights.a0.main)
            ∧ t.lights.a0.second = (if p.amber then s.lights.a0.second.result (withinLimits s.cfg.amberTest c.amberSecond) else s.lights.a0.second)
            ∧ t.lights.a1.main = (if p.red1 then s.lights.a1.main.result (withinLimits s.cfg.red1Test c.red1Main) else s.lights.a1.main)
            ∧ t.lights.a1.second = (if p.red1 then s.lights.a1.second.result (withinLimits s.cfg.red1Test c.red1Second) else s.lights.a1.second)
            ∧ t.lights.a2.main = (if p.red2 then s.lights.a2.main.result (withinLimits s.cfg.red2Test c.red2Main) else s.lights.a2.main)
            ∧ t.lights.a2.second = (if p.red2 then s.lights.a2.second.result (withinLimits s.cfg.red2Test c.red2Second) else s.lights.a2.second)
            ∧ KeptBut (.lights :: .conds :: watchedParts) (advance dt s) t)
      ∧ (∀ p : LampPulse, s.lights.pulse = some p → 20 ≤ ((advance dt s).clock.ms - p.start).toNat →
          ∃ t, exec (.testPulseEnd dt .lamps) s = .next t ∧ Concluded { advance dt s with lights := { s.lights with pulse := none } } t)

/-- Proving of the indicators (R162, R164). DCI_HOT_SAMPLE 100 ms into a lit interval gives the output's string its result. DCI_COLD_TEST pulses the
assigned outputs that are DARK and starts the 30 s again. DCI_TEST_SAMPLE 15 ms into a pulse judges the outputs that it still pulses, an output
that has become PROVEN having lost its pulse. TEST_PULSE_END ends the pulse and gives the pulsed strings their results, and no others. DCI_FAILED
stands exactly where a string is OUT. Each 30 s run from the end of the one before it (log 45), and the results of a pulse count at its end (log
59), the model's choices. -/
def Obligations.IndicatorStringsAreProved : Prop :=
  ∀ (dt : Nat) (s : State), s.powered = true →
    (∀ (out : Fin 2) (o : DciOut) (l : Time) (mA : Nat), s.dci.out out = some o → o.driven = true → o.litStart = some l →
        100 ≤ ((advance dt s).clock.ms - l).toNat → s.conds.length < 31 → hasCond s (condOf .dciFailed s.cfg.own out.val) = o.lamp.out →
        ∃ t q, exec (.dciHotSample dt out mA) s = .next t ∧ t.dci.out out = some q
          ∧ q.lamp = o.lamp.result (decide (s.cfg.dciLit.low ≤ mA ∧ mA ≤ s.cfg.dciLit.high))
          ∧ hasCond t (condOf .dciFailed s.cfg.own out.val) = q.lamp.out
          ∧ (t.dci.out (1 - out)).map (·.lamp) = (s.dci.out (1 - out)).map (·.lamp)
          ∧ KeptBut (.conds :: watchedParts) (advance dt s) t)
      ∧ (∀ (c : Time) (b0 b1 : Bool), isReport s = true → s.dci.coldStart = some c → 30000 ≤ ((advance dt s).clock.ms - c).toNat →
          (b0 = true ↔ ∃ o, s.dci.out0 = some o ∧ o.proven = false ∧ dciProven s o = false) →
          (b1 = true ↔ ∃ o, s.dci.out1 = some o ∧ o.proven = false ∧ dciProven s o = false) →
          ∃ t, exec (.dciColdTest dt) s = .next t ∧ t.dci.coldStart = some (later c 30000)
            ∧ t.dci.pulse = (if b0 || b1 then
                some { start := (advance dt s).clock.ms, on0 := b0, on1 := b1, sampled := false, good0 := false, good1 := false } else none)
            ∧ KeptBut watchedParts (advance dt s) t)
      ∧ (∀ (p : DciPulse) (b0 b1 : Bool) (x y : Nat), s.dci.pulse = some p → p.sampled = false → 15 ≤ ((advance dt s).clock.ms - p.start).toNat →
          (b0 = true ↔ p.on0 = true ∧ ∀ o, s.dci.out0 = some o → dciProven s o = false) →
          (b1 = true ↔ p.on1 = true ∧ ∀ o, s.dci.out1 = some o → dciProven s o = false) →
          ∃ t, exec (.dciTestSample dt x y) s = .next t
            ∧ t.dci.pulse = (if b0 || b1 then
                some { start := p.start, on0 := b0, on1 := b1, sampled := true,
                       good0 := decide (s.cfg.dciTest.low ≤ x ∧ x ≤ s.cfg.dciTest.high),
                       good1 := decide (s.cfg.dciTest.low ≤ y ∧ y ≤ s.cfg.dciTest.high) } else none)
            ∧ KeptBut watchedParts (advance dt s) t)
      ∧ (∀ p : DciPulse, s.dci.pulse = some p → 20 ≤ ((advance dt s).clock.ms - p.start).toNat →
          ∃ t, exec (.testPulseEnd dt .dcis) s = .next t ∧ t.dci.pulse = none
            ∧ t.dci.out0.map (·.lamp) = s.dci.out0.map (fun o => if p.sampled && p.on0 then o.lamp.result p.good0 else o.lamp)
            ∧ t.dci.out1.map (·.lamp) = s.dci.out1.map (fun o => if p.sampled && p.on1 then o.lamp.result p.good1 else o.lamp)
            ∧ (s.conds.length < 30 → (∀ (i : Fin 2) (o : DciOut), s.dci.out i = some o → hasCond s (condOf .dciFailed s.cfg.own i.val) = o.lamp.out) →
                ∀ (i : Fin 2) (o : DciOut), t.dci.out i = some o → hasCond t (condOf .dciFailed s.cfg.own i.val) = o.lamp.out)
            ∧ KeptBut (.conds :: watchedParts) (advance dt s) t)

/-! ### The barrier and the 1 ms inputs (chapters 08 and 11) -/

/-- CONTACT_SAMPLE, CONTACT_CHANGE and KEY_INPUT_CHANGE (R152, R153, R157, R193): a sample that agrees with a filtered level empties its run, a
differing one that is not yet the N-th joins it, the key's first sample gives its level, the N-th differing one flips it; and DOWN made, with UP open,
under a driven LOWER command ends LOWER with the state DOWN. -/
def Obligations.InputFiltersFollowTheSamples : Prop :=
  ∀ (dt : Nat) (s : State), s.powered = true →
    (∀ (c : Contact) (l x : Bool), barrierServed s = true → (s.barrier.contact c).level = some l →
        (x = l → ∃ t, exec (.contactSample dt (.contact c) x) s = .next t
          ∧ Concluded { advance dt s with barrier := s.barrier.putContact { level := some l, run := 0 } c } t)
        ∧ (x ≠ l → (s.barrier.contact c).run + 1 < s.cfg.timing.filterLength → ∃ t, exec (.contactSample dt (.contact c) x) s = .next t
          ∧ Concluded { advance dt s with barrier := s.barrier.putContact { level := some l, run := (s.barrier.contact c).run + 1 } c } t))
      ∧ (∀ x : Bool, s.key.level = none → ∃ t, exec (.contactSample dt .key x) s = .next t
          ∧ Concluded { advance dt s with key := { level := some x, run := 0 } } t)
      ∧ (∀ l x : Bool, s.key.level = some l →
          (x = l → ∃ t, exec (.contactSample dt .key x) s = .next t ∧ Concluded { advance dt s with key := { level := some l, run := 0 } } t)
          ∧ (x ≠ l → s.key.run + 1 < s.cfg.timing.filterLength → ∃ t, exec (.contactSample dt .key x) s = .next t
            ∧ Concluded { advance dt s with key := { level := some l, run := s.key.run + 1 } } t)
          ∧ (s.cfg.timing.filterLength ≤ s.key.run + 1 → ∃ t, exec (.keyInputChange dt) s = .next t
            ∧ Concluded { advance dt s with key := { level := some !l, run := 0 } } t))
      ∧ (barrierServed s = true → s.barrier.command = .lower → s.barrier.lowerOn = true → s.barrier.raiseOn = false → s.barrier.contactFault = false →
          s.barrier.down.level = some false → s.barrier.up.level = some false → s.cfg.timing.filterLength ≤ s.barrier.down.run + 1 →
          s.barrier.state ≠ .down → ∃ t, exec (.contactChange dt .down) s = .next t
            ∧ Handled (advance dt s) (clearCond (ownCond s .barrierStalled 0) { advance dt s with barrier := { s.barrier with
                down := { level := some true, run := 0 }, bothSince := none, lowerOn := false, lowerStop := (advance dt s).clock.ms,
                travelStart := none, stalled := false, state := .down } }) [.judge, .evaluate] t)

/-- The drives (R153 to R156, R159). DEAD_TIME_END begins a wanted drive 200 ms after the other output stopped, not before. TRAVEL_TIMEOUT under a
driven LOWER stalls the barrier, the output still driven, and raises BARRIER_STALLED; in CONTACT_FAULT it ends LOWER. CONTACT_FAULT_TIMEOUT enters
CONTACT_FAULT, raises BARRIER_CONTACTS and leaves RAISE undriven. LOCKOUT_LOWER_TIMER hands LOWER 8 s after the entry into LOCKED_OUT. -/
def Obligations.BarrierDrivesTakeTheirTimes : Prop :=
  ∀ (dt : Nat) (s : State), s.powered = true → barrierServed s = true →
    (s.barrier.contactFault = false → s.barrier.lowerOn = false → s.barrier.raiseOn = false → s.barrier.command = .lower → s.barrier.atDown = false →
        (200 ≤ ((advance dt s).clock.ms - s.barrier.raiseStop).toNat → s.barrier.state ≠ .lowering → ∃ t, exec (.deadTimeEnd dt) s = .next t
          ∧ Handled (advance dt s) { advance dt s with barrier := { s.barrier with
              lowerOn := true, travelStart := some (advance dt s).clock.ms, stalled := false, state := .lowering } } [.judge, .evaluate] t)
        ∧ (((advance dt s).clock.ms - s.barrier.raiseStop).toNat < 200 → s.barrier.state = s.barrier.stateNow → ∃ t, exec (.deadTimeEnd dt) s = .next t
          ∧ Concluded (advance dt s) t))
      ∧ (s.barrier.contactFault = false → s.barrier.lowerOn = false → s.barrier.raiseOn = false → s.barrier.command = .raise → s.barrier.atUp = false →
          s.phase.phase = .opening → 200 ≤ ((advance dt s).clock.ms - s.barrier.lowerStop).toNat → s.barrier.state ≠ .raising →
          ∃ t, exec (.deadTimeEnd dt) s = .next t ∧ Handled (advance dt s) { advance dt s with barrier := { s.barrier with
              raiseOn := true, travelStart := some (advance dt s).clock.ms, stalled := false, state := .raising } } [.judge, .evaluate] t)
      ∧ (∀ c : Time, s.barrier.lowerOn = true → s.barrier.raiseOn = false → s.barrier.stalled = false → s.barrier.travelStart = some c →
          s.cfg.timing.travelTimeout * 1000 ≤ ((advance dt s).clock.ms - c).toNat →
          (s.barrier.contactFault = false → s.barrier.command = .lower → s.barrier.atDown = false → s.barrier.state ≠ .stalled → s.conds.length < 31 →
              ∃ s1 t, exec (.travelTimeout dt) s = .next t ∧ Handled (advance dt s) s1 [.judge, .evaluate] t
                ∧ s1.barrier = { s.barrier with stalled := true, state := .stalled } ∧ hasCond s1 (ownCond s .barrierStalled 0) = true
                ∧ KeptBut [.barrier, .conds, .notices] (advance dt s) s1)
            ∧ (s.barrier.contactFault = true → s.barrier.state = .contactFault → ∃ t, exec (.travelTimeout dt) s = .next t
                ∧ Concluded { advance dt s with barrier := { s.barrier with
                    lowerSpent := true, lowerOn := false, lowerStop := (advance dt s).clock.ms, travelStart := none } } t))
      ∧ (∀ c : Time, s.barrier.up.level = some true → s.barrier.down.level = some true → s.barrier.contactFault = false → s.barrier.bothSince = some c →
          500 < ((advance dt s).clock.ms - c).toNat → s.barrier.state ≠ .contactFault → s.conds.length < 31 →
          ∃ s1 t, exec (.contactFaultTimeout dt) s = .next t ∧ Handled (advance dt s) s1 [.judge, .evaluate] t
            ∧ s1.barrier.contactFault = true ∧ s1.barrier.state = .contactFault ∧ s1.barrier.raiseOn = false
            ∧ (s1.barrier.lowerOn = true → s.barrier.command = .lower) ∧ hasCond s1 (ownCond s .barrierContacts 0) = true
            ∧ KeptBut [.barrier, .conds, .notices] (advance dt s) s1)
      ∧ (∀ c : Time, s.join.state = .lockedOut → s.join.lowerStart = some c → 8000 ≤ ((advance dt s).clock.ms - c).toNat →
          ∃ s1 sigs t, exec (.lockoutLowerTimer dt) s = .next t ∧ Handled (advance dt s) s1 sigs t ∧ s1.barrier.command = .lower
            ∧ s1.join = { s.join with lowerStart := none } ∧ KeptBut [.join, .barrier, .conds, .notices] (advance dt s) s1
            ∧ (s.barrier.atDown = false → s.barrier.raiseOn = false → 200 ≤ ((advance dt s).clock.ms - s.barrier.raiseStop).toNat →
                s1.barrier.lowerOn = true))

/-! ### The crossing line (chapter 04) -/

/-- Line access (R63, R64, R66, R70, R73): CARRIER_START on a heeded line ends the quiet, the last END_OF_CARRIER begins it, IDLE_GAP_END notes its
end 1 ms later; HOLDOFF_END starts the chosen frame on both lines once its holdoff has run, with its fields and its sequence number as they stand,
and not before. The chosen frame is one of the most urgent class queued and in it the one queued earliest, of two STRIKEs queued at one instant
that of slot 0 (R70); a request enters at the end of that order, or replaces a frame of its key in its place and with its count (R69). The gap is
noted with the time at which it was due to end (log 1, the model's choice for a command that comes late); the order of queueing is kept as a stamp
(log 43, the model's choice). -/
def Obligations.FramesContendForTheLine : Prop :=
  (∀ (q : List TxItem) (i : TxItem), (q.map (·.what.key)).Nodup → chosen q = some i →
      i ∈ q ∧ ∀ j ∈ q, i.what.kind.classRank ≤ j.what.kind.classRank
        ∧ (i.what.kind = j.what.kind → (i.what.kind ≠ .strike ∨ i.queuedAt ≠ j.queuedAt → i.ord ≤ j.ord)
            ∧ (∀ a b : Slot, i.what = .strike a → j.what = .strike b → i.queuedAt = j.queuedAt → a.val ≤ b.val)))
    ∧ (∀ q : List TxItem, chosen q = none ↔ q = [])
    ∧ (∀ (w : TxWhat) (s : State), admits s.join w = true →
      (queuedUnder s.line.queue w.key = none → w.kind ≠ .service ∨ (services s.line.queue).length < 2 →
          (request w s).line.queue = s.line.queue ++ [{ what := w, attempts := 0, seq := none, ord := s.line.nextOrd, queuedAt := s.clock.us }]
            ∧ (request w s).line.nextOrd = s.line.nextOrd + 1)
        ∧ (queuedUnder s.line.queue w.key ≠ none →
            (request w s).line.queue = s.line.queue.map (fun i => if i.what.key = w.key then { i with what := w, seq := none } else i)))
    ∧ ∀ (dt : Nat) (l : Line) (s : State), s.powered = true → s.line.rxOn = true →
    (heeded s l = true → ∃ t, exec (.carrierStart dt l) s = .next t ∧ lineAt t l = { lineAt s l with carrier := true }
        ∧ lineAt t (otherLine l) = lineAt s (otherLine l) ∧ t.line.quietSince = none ∧ t.line.gapEnd = none ∧ t.line.queue = s.line.queue
        ∧ t.line.flight = s.line.flight ∧ KeptBut watchedParts (advance dt s) t)
      ∧ (s.line.flight = none → (lineAt s (otherLine l)).carrier = false → s.line.quietSince = none → ∃ t, exec (.endOfCarrier dt l) s = .next t
          ∧ lineAt t l = { lineAt s l with carrier := false, blocked := false } ∧ lineAt t (otherLine l) = lineAt s (otherLine l)
          ∧ t.line.quietSince = some (advance dt s).clock.us ∧ t.line.queue = s.line.queue ∧ KeptBut watchedParts (advance dt s) t)
      ∧ (∀ q : Time, s.line.quietSince = some q → s.line.gapEnd = none → lineQuiet s = true → s.line.queue = [] →
          1000 ≤ ((advance dt s).clock.us - q).toNat → ∃ t, exec (.idleGapEnd dt) s = .next t ∧ t.line = { s.line with gapEnd := some (later q 1000) }
            ∧ KeptBut watchedParts (advance dt s) t)
      ∧ (∀ (g : Time) (i : TxItem) (body : Body), s.line.gapEnd = some g → s.line.flight = none → lineQuiet s = true → chosen s.line.queue = some i →
          s.line.quietSince ≠ none → reached (advance dt s).clock.us g = true → buildBody (advance dt s) i.what = some body →
          (((advance dt s).clock.us - g).toNat < (16 * i.what.kind.classRank + s.cfg.own) * 150 → ∃ t, exec (.holdoffEnd dt) s = .next t
              ∧ t.line = s.line ∧ KeptBut watchedParts (advance dt s) t)
            ∧ ((16 * i.what.kind.classRank + s.cfg.own) * 150 ≤ ((advance dt s).clock.us - g).toNat → ∃ t q, exec (.holdoffEnd dt) s = .next t
                ∧ (∀ x : Byte, i.seq = some x → q = x) ∧ (i.seq = none → q = s.line.seqOf i.what.kind ∧ t.line.seqOf i.what.kind = q + 1)
                ∧ t.line.flight = some {
                    item := { i with seq := some q },
                    bytes := ({ crossing := s.cfg.crossing, source := s.cfg.own, seq := q, body := body } : Frame).bytes,
                    startUs := (advance dt s).clock.us, startMs := (advance dt s).clock.ms, drivingA := true, drivingB := true, noRetry := false }
                ∧ t.line.queue = s.line.queue.filter (fun j => j.ord ≠ i.ord) ∧ KeptBut watchedParts (advance dt s) t))

/-- The end of an attempt (R66 to R69). READBACK_MISMATCH stops the frame on one line and sets COLLISION_SEEN. FRAME_ATTEMPT_END where the frame has
run to its end on some line: it leaves, TX_BLOCKED is cleared, a STATUS's start is noted. Where it was aborted on both lines: it returns with its
count risen, or hands the count to a frame queued under its key, with TX_RETRY_SEEN set; at the retry limit it is dropped and TX_BLOCKED raised.
That a frame lasts its bits to the nearest microsecond is log 34, that a STATUS in flight counts as left for R72 log 11, that a newer frame under
the dropped frame's key stays with the count it has log 13, the model's choices. A frame that is not retried (R71) hands its count to a frame
queued under its key, and else ends without TX_BLOCKED, at the limit too (log 60, the model's choice). -/
def Obligations.AttemptsEndInSuccessRetryOrDrop : Prop :=
  ∀ (dt : Nat) (s : State) (f : Flight), s.powered = true → s.line.flight = some f →
    (∀ (l : Line) (remains : Bool), drives s l = true → ∃ t, exec (.readbackMismatch dt l remains) s = .next t
        ∧ t.line.flight = some (match l with
            | .a => { f with drivingA := false }
            | .b => { f with drivingB := false })
        ∧ lineAt t l = { lineAt s l with carrier := remains, blocked := remains } ∧ t.line.queue = s.line.queue
        ∧ t.latches = s.latches.set .collisionSeen ∧ KeptBut (.latches :: watchedParts) (advance dt s) t)
      ∧ (f.drivingA = true ∨ f.drivingB = true → (f.bytes.length * 15625 + 30) / 60 ≤ ((advance dt s).clock.us - f.startUs).toNat → f.item.what ≠ .hail →
          s.line.gapEnd = none → ∃ t, exec (.frameAttemptEnd dt) s = .next t ∧ t.line.flight = none ∧ hasCond t (ownCond s .txBlocked 0) = false
            ∧ t.line.statusLeft = (if f.item.what = .status then some f.startMs else s.line.statusLeft) ∧ (∀ i ∈ s.line.queue, i ∈ t.line.queue)
            ∧ KeptBut (.conds :: watchedParts) (advance dt s) t)
      ∧ (f.drivingA = false → f.drivingB = false → f.noRetry = false → s.line.gapEnd = none →
          (s.cfg.timing.retryLimit = 0 ∨ f.item.attempts + 1 < 16 * s.cfg.timing.retryLimit →
              (f.item.what.kind ≠ .service → queuedUnder s.line.queue f.item.what.key = none → ∃ t, exec (.frameAttemptEnd dt) s = .next t
                  ∧ t.line.flight = none ∧ t.line.queue = s.line.queue ++ [{ f.item with attempts := f.item.attempts + 1 }]
                  ∧ t.latches = s.latches.set .txRetrySeen ∧ KeptBut (.latches :: watchedParts) (advance dt s) t)
                ∧ (queuedUnder s.line.queue f.item.what.key ≠ none → ∃ t, exec (.frameAttemptEnd dt) s = .next t ∧ t.line.flight = none
                  ∧ t.line.queue = s.line.queue.map (fun i => if i.what.key = f.item.what.key then { i with attempts := f.item.attempts + 1 } else i)
                  ∧ t.latches = s.latches.set .txRetrySeen ∧ KeptBut (.latches :: watchedParts) (advance dt s) t))
            ∧ (1 ≤ s.cfg.timing.retryLimit → 16 * s.cfg.timing.retryLimit ≤ f.item.attempts + 1 → s.conds.length < 31 →
                ∃ t, exec (.frameAttemptEnd dt) s = .next t ∧ t.line.flight = none ∧ hasCond t (ownCond s .txBlocked 0) = true
                  ∧ (f.item.what = .status → t.line.statusLeft = some (advance dt s).clock.ms) ∧ (∀ i ∈ s.line.queue, i ∈ t.line.queue)
                  ∧ KeptBut (.conds :: watchedParts) (advance dt s) t))
      ∧ (f.drivingA = false → f.drivingB = false → f.noRetry = true → s.line.gapEnd = none →
          (queuedUnder s.line.queue f.item.what.key = none → ∃ t, exec (.frameAttemptEnd dt) s = .next t ∧ t.line.flight = none
              ∧ t.line.queue = s.line.queue ∧ KeptBut watchedParts (advance dt s) t)
            ∧ (queuedUnder s.line.queue f.item.what.key ≠ none → ∃ t, exec (.frameAttemptEnd dt) s = .next t ∧ t.line.flight = none
              ∧ t.line.queue = s.line.queue.map (fun i => if i.what.key = f.item.what.key then { i with attempts := f.item.attempts + 1 } else i)
              ∧ t.latches = s.latches.set .txRetrySeen ∧ KeptBut (.latches :: watchedParts) (advance dt s) t))

/-- STATUS timing (R72): in JOINED a STATUS is queued (its attempt may begin at once) by STATUS_PERIOD_EXPIRY a status period after the last one left,
and by STATUS_HOLDBACK_END 40 ms after it where a change is held back, not before; a change that asks for a STATUS earlier than that is held back.
While a STATUS is in flight its start counts as the time the last one left (log 11, the model's choice). -/
def Obligations.StatusFollowsItsPeriodAndHoldback : Prop :=
  (∀ (dt : Nat) (s : State) (c : Time), s.powered = true → s.join.state = .joined → statusQueued s = false → statusLeftAt s = some c → QueueLaw s →
    (s.cfg.timing.statusPeriod ≤ ((advance dt s).clock.ms - c).toNat → ∃ t, exec (.statusPeriodExpiry dt) s = .next t ∧ underway t .status
        ∧ t.line.heldBack = false ∧ KeptBut watchedParts (advance dt s) t)
      ∧ (s.line.heldBack = true → 40 ≤ ((advance dt s).clock.ms - c).toNat → ∃ t, exec (.statusHoldbackEnd dt) s = .next t ∧ underway t .status
        ∧ t.line.heldBack = false ∧ KeptBut watchedParts (advance dt s) t)
      ∧ (((advance dt s).clock.ms - c).toNat < 40 → ∃ t, exec (.statusHoldbackEnd dt) s = .next t ∧ t.line.queue = s.line.queue
        ∧ t.line.flight = s.line.flight ∧ t.line.heldBack = s.line.heldBack ∧ KeptBut watchedParts (advance dt s) t))
    ∧ ∀ (s : State) (c : Time), s.join.state = .joined → statusQueued s = false → statusLeftAt s = some c → sinceMs s c < 40 →
        askStatus s = { s with line := { s.line with heldBack := true } }

/-- FRAME_RECEIVED (R74 to R81). A framing or CRC failure sets CRC_SEEN and joins the line's history; on a QUALIFYING line, or as the fourth failure
held on a GOOD one, it makes the line FAILED, sets its drop latch and raises LINE_FAILED. A frame of another crossing joins the history alone. A
valid frame makes a FAILED line QUALIFYING with count 1, raises the count of a QUALIFYING one, and as its eighth makes it GOOD, LINE_FAILED
cleared. A valid frame of another station of the list that the copy filter does not remember is remembered and handed on; one it remembers is a
second copy, handed on no more. How frames with unnamed bits or of a short length are judged is log 22, that a GOOD line fails at any failure that
leaves four or more held log 52, the model's choices. -/
def Obligations.ReceivedFramesAreJudged : Prop :=
  ∀ (dt : Nat) (l : Line) (bytes : List Byte) (s : State), s.powered = true → listens s l = true →
    (judgeFrame s.cfg.crossing bytes = .framingFailure ∨ judgeFrame s.cfg.crossing bytes = .crcFailure →
        ((lineAt s l).health = .good → (((false :: (lineAt s l).history).take 16).filter (! ·)).length < 4 →
            ∃ t, exec (.frameReceived dt l bytes) s = .next t ∧ lineAt t l = { lineAt s l with history := (false :: (lineAt s l).history).take 16 }
              ∧ t.latches = s.latches.set .crcSeen ∧ t.line.accepted = s.line.accepted ∧ KeptBut (.latches :: watchedParts) (advance dt s) t)
          ∧ ((lineAt s l).health = .failed →
            ∃ t, exec (.frameReceived dt l bytes) s = .next t ∧ lineAt t l = { lineAt s l with history := (false :: (lineAt s l).history).take 16 }
              ∧ t.latches = s.latches.set .crcSeen ∧ t.line.accepted = s.line.accepted ∧ KeptBut (.latches :: watchedParts) (advance dt s) t)
          ∧ ((lineAt s l).health = .qualifying
              ∨ ((lineAt s l).health = .good ∧ 4 ≤ (((false :: (lineAt s l).history).take 16).filter (! ·)).length) → s.conds.length < 31 →
            ∃ t, exec (.frameReceived dt l bytes) s = .next t ∧ (lineAt t l).health = .failed ∧ (lineAt t l).history = []
              ∧ t.latches = (s.latches.set .crcSeen).set (match l with
                  | .a => .lineADrop
                  | .b => .lineBDrop)
              ∧ hasCond t (ownCond s .lineFailed (match l with
                  | .a => 0
                  | .b => 1)) = true
              ∧ KeptBut (.latches :: .conds :: watchedParts) (advance dt s) t))
      ∧ (judgeFrame s.cfg.crossing bytes = .foreign → ∃ t, exec (.frameReceived dt l bytes) s = .next t
          ∧ lineAt t l = { lineAt s l with history := (true :: (lineAt s l).history).take 16 } ∧ t.line.accepted = s.line.accepted
          ∧ KeptBut watchedParts (advance dt s) t)
      ∧ (judgeFrame s.cfg.crossing bytes = .valid → ∃ t, exec (.frameReceived dt l bytes) s = .next t
          ∧ (lineAt t l).history = (true :: (lineAt s l).history).take 16 ∧ (lineAt t l).lastValid = (advance dt s).clock.ms
          ∧ ((lineAt s l).health = .failed → (lineAt t l).health = .qualifying ∧ (lineAt t l).qualifying = 1)
          ∧ ((lineAt s l).health = .qualifying → (lineAt s l).qualifying + 1 < 8 →
              (lineAt t l).health = .qualifying ∧ (lineAt t l).qualifying = (lineAt s l).qualifying + 1)
          ∧ ((lineAt s l).health = .qualifying → 8 ≤ (lineAt s l).qualifying + 1 → (lineAt t l).health = .good
              ∧ hasCond t (ownCond s .lineFailed (match l with
                  | .a => 0
                  | .b => 1)) = false)
          ∧ ((lineAt s l).health = .good → (lineAt t l).health = .good))
      ∧ (∀ f : Frame, judgeFrame s.cfg.crossing bytes = .valid → readFrame bytes = some f → f.source ≠ s.cfg.own →
          (∃ e ∈ s.cfg.stations, e.number = f.source) →
          (remembers (advance dt s) f = false → ∃ t, exec (.frameReceived dt l bytes) s = .next t
              ∧ t.line.accepted = s.line.accepted ++ [{
                  source := f.source, seq := f.seq, body := f.body, onA := decide (l = .a), onB := decide (l = .b),
                  endMs := (advance dt s).clock.ms, flashAt := flashOffset (advance dt s) }]
              ∧ t.line.filter = s.line.filter ++ [{ source := f.source, kind := f.body.kind, seq := f.seq, time := (advance dt s).clock.ms }]
              ∧ (lineAt t l).lastValid = (advance dt s).clock.ms ∧ KeptBut (.latches :: .conds :: watchedParts) (advance dt s) t)
            ∧ (remembers (advance dt s) f = true → ∃ t, exec (.frameReceived dt l bytes) s = .next t
                ∧ t.line.accepted = s.line.accepted.map (fun a =>
                    if f.body.kind = .status ∧ a.source = f.source ∧ a.body.kind = .status ∧ a.seq = f.seq then
                      { a with onA := a.onA || decide (l = .a), onB := a.onB || decide (l = .b) } else a)
                ∧ t.line.filter = s.line.filter ∧ (lineAt t l).lastValid = (advance dt s).clock.ms))

/-- LINE_SILENCE, COPY_FILTER_ENTRY_EXPIRY and INFO_CONDITION_EXPIRY (R76, R79, R80, R175): a line silent for the silence limit while the other is not
becomes FAILED with its latch and LINE_FAILED; the oldest entry leaves the copy filter after 1000 ms; an INFO condition leaves the set at its expiry
time. -/
def Obligations.SilenceAndExpiriesTakeTheirTimes : Prop :=
  ∀ (dt : Nat) (s : State), s.powered = true →
    (∀ l : Line, s.line.rxOn = true → (lineAt s l).health ≠ .failed →
        s.cfg.timing.silenceLimit ≤ ((advance dt s).clock.ms - (lineAt s l).lastValid).toNat →
        ((advance dt s).clock.ms - (lineAt s (otherLine l)).lastValid).toNat < s.cfg.timing.silenceLimit → s.conds.length < 31 →
        ∃ t, exec (.lineSilence dt l) s = .next t ∧ lineAt t l = { lineAt s l with health := .failed, history := [], qualifying := 0 }
          ∧ lineAt t (otherLine l) = lineAt s (otherLine l)
          ∧ t.latches = s.latches.set (match l with
              | .a => .lineADrop
              | .b => .lineBDrop)
          ∧ hasCond t (ownCond s .lineFailed (match l with
              | .a => 0
              | .b => 1)) = true
          ∧ KeptBut (.latches :: .conds :: watchedParts) (advance dt s) t)
      ∧ (∀ (e : FilterEntry) (rest : List FilterEntry), s.line.filter = e :: rest → 1000 ≤ ((advance dt s).clock.ms - e.time).toNat →
          ∃ t, exec (.copyFilterEntryExpiry dt) s = .next t ∧ Concluded { advance dt s with line := { s.line with filter := rest } } t)
      ∧ (∀ (e : CondEntry) (x : Time), e ∈ s.conds → e.expiry = some x → reached (advance dt s).clock.ms x = true →
          ∃ t, exec (.infoConditionExpiry dt e.id) s = .next t ∧ t.conds = s.conds.filter (fun d => d.id ≠ e.id)
            ∧ KeptBut (.conds :: watchedParts) (advance dt s) t)

/-! ### Peers (chapters 02, 03 and 05) -/

/-- STRIKE_TAKEN (R35, R41, R45, R51): a STRIKE of a LIVE peer about an outer DP that is its own, one inward axle past the baseline of a CLEAR
approach section, makes that section OCCUPIED from its far end with balance 1, the STRIKE's counts as its baseline, and the end of the frame plus
the remaining delay less the transit allowance as its deadline. Outside declared lockout (R190), one of another epoch makes the section UNKNOWN
without an underlying state (R48), one more than 1000 axles past the baseline makes it DISTURBED (R47), with the STRIKE's counts as its baseline
and its balance as it was. One from a peer that is not LIVE, or about a DP that is not its own, has no effect. -/
def Obligations.StrikeOccupiesTheApproach : Prop :=
  ∀ (dt : Nat) (s : State) (a : Accepted) (rest : List Accepted) (b : StrikeBody), s.powered = true → s.line.accepted = a :: rest → a.body = .strike b →
    (∀ (p : Peer) (e : DpEntry) (r : Sect) (c : Counts) (d : Nat), peerAt s a.source = some p → p.state = .live → s.cfg.dps[b.dp]? = some e →
        e.owner = a.source → dpOuter b.dp = true → (s.sections.map (·.id)).Nodup → sectAt s (crossingSide b.dp) = some r → r.kind ≠ .island →
        r.state = .clear → r.balance = 0 → r.tag = none → r.deadline = none → r.held = false → r.base b.dp = some c → c.epoch = b.epoch →
        b.inn = c.inn + 1 → b.out = c.out → b.delay = some d → s.phase.releaseExpired = false →
        ∃ t q, exec (.strikeTaken dt) s = .next t ∧ t.line.accepted = rest ∧ sectAt t (crossingSide b.dp) = some q ∧ q.state = .occupied
          ∧ q.tag = some .far ∧ q.balance = 1 ∧ q.base b.dp = some { inn := b.inn, out := b.out, epoch := b.epoch }
          ∧ q.deadline = some (later a.endMs (d - s.cfg.timing.transit)) ∧ t.dps = s.dps)
      ∧ (∀ (p : Peer) (e : DpEntry) (r : Sect) (c : Counts), peerAt s a.source = some p → p.state = .live → s.cfg.dps[b.dp]? = some e →
        e.owner = a.source → dpOuter b.dp = true → (s.sections.map (·.id)).Nodup → sectAt s (crossingSide b.dp) = some r → r.state ≠ .disturbed →
        r.base b.dp = some c → s.conds.length ≤ 20 → declaredLockout s = false →
        (c.epoch ≠ b.epoch → ∃ t q, exec (.strikeTaken dt) s = .next t ∧ sectAt t (crossingSide b.dp) = some q ∧ q.state = .unknown
            ∧ q.underlying = none ∧ q.balance = r.balance ∧ q.base b.dp = some { inn := b.inn, out := b.out, epoch := b.epoch }
            ∧ (r.state ≠ .unknown → hasCond t (condOf .sectionUnknown (crossingSide b.dp) 0) = true))
          ∧ (c.epoch = b.epoch → 1000 < (b.inn - c.inn).toNat ∨ 1000 < (b.out - c.out).toNat →
            ∃ t q, exec (.strikeTaken dt) s = .next t ∧ sectAt t (crossingSide b.dp) = some q ∧ q.state = .disturbed ∧ q.balance = r.balance
              ∧ q.base b.dp = some { inn := b.inn, out := b.out, epoch := b.epoch }
              ∧ hasCond t (condOf .sectionDisturbed (crossingSide b.dp) 0) = true))
      ∧ ((∀ p : Peer, peerAt s a.source = some p → p.state ≠ .live) ∨ (∀ e : DpEntry, s.cfg.dps[b.dp]? = some e → e.owner ≠ a.source) →
          ∃ t, exec (.strikeTaken dt) s = .next t ∧ Concluded { advance dt s with line := { s.line with accepted := rest } } t)

/-- STATUS_TAKEN in JOINED (R94, R97, R99 to R102): with an equal digest the entry takes every field and becomes LIVE, the fields that differ join
the sticky mismatch, and the time of the mismatch stands from the first STATUS that differs and goes at one that does not; with another digest the
entry becomes MISMATCHED, LAYOUT_MISMATCH is raised, the phase leaves for FAILED, and the published fields it held stay. The compare comes last:
it reads the phase after the entry, the DP reports and the post report have been evaluated (`statusHandedOn`; R94, R106). That a move which the
counts alone cause is taken before it too (one of R100's two orders) is log 61, that a STATUS of another digest sets the time last heard alone log
21, the model's choices. -/
def Obligations.StatusIsEnteredOrMismatched : Prop :=
  ∀ (dt : Nat) (s : State) (a : Accepted) (rest : List Accepted) (b : StatusBody) (p : Peer), s.powered = true → s.line.accepted = a :: rest →
    a.body = .status b → peerAt s a.source = some p → s.join.state = .joined →
    (∀ s1 : State, s1 = statusHandedOn a b p { advance dt s with line := { s.line with accepted := rest } } →
      b.digest = s.digest → ∃ t q, exec (.statusTaken dt) s = .next t ∧ t.line.accepted = rest ∧ peerAt t a.source = some q ∧ q.state = .live
        ∧ q.roles = b.roles ∧ q.lastHeard = some a.endMs ∧ q.lastStatus = some a.endMs ∧ q.epoch = some b.epoch ∧ q.lastSeq = some a.seq
        ∧ q.phase = some b.phase ∧ q.post = b.post ∧ q.dps = b.dps ∧ q.sections = some b.sections ∧ q.conds = b.conds ∧ q.condCount = b.condCount
        ∧ q.seenA = a.onA ∧ q.seenB = a.onB
        ∧ q.stickyPhase = (p.stickyPhase || phaseDiffers s1 b) ∧ q.stickyHealth = (p.stickyHealth || healthDiffers s b)
        ∧ q.stickySections = (p.stickySections || (s.cfg.cmpSections && b.sections != sectionSummary t))
        ∧ q.mismatchSince = (if phaseDiffers s1 b || healthDiffers s b || (s.cfg.cmpSections && b.sections != sectionSummary t) then
            some (p.mismatchSince.getD a.endMs) else none))
      ∧ (b.digest ≠ s.digest → p.state ≠ .mismatched → s.conds.length ≤ 16 → s.sections.length ≤ 6 → s.phase.phase ≠ .starting →
          ∃ t q, exec (.statusTaken dt) s = .next t ∧ t.line.accepted = rest ∧ peerAt t a.source = some q ∧ q.state = .mismatched
            ∧ q.lastHeard = some a.endMs ∧ q.lastStatus = p.lastStatus ∧ q.phase = p.phase ∧ q.dps = p.dps ∧ q.conds = p.conds
            ∧ hasCond t (condOf .layoutMismatch a.source 0) = true ∧ t.phase.phase = .failed)

/-- HAIL_TAKEN and ANSWER_TAKEN (R89, R90, R95, R97, R98): the entry takes the fields of the JOIN, becomes HAILING, MISMATCHED or STALE or stays, by
the digest, the sub-kind and the join state shown; a HAIL is answered in JOINED; before JOINED the join record takes the verdict of the digest. -/
def Obligations.HailAndAnswerMoveTheEntry : Prop :=
  ∀ (dt : Nat) (s : State) (a : Accepted) (rest : List Accepted) (b : JoinBody) (p : Peer) (c : Instr), s.powered = true →
    s.line.accepted = a :: rest → a.body = .join b → peerAt s a.source = some p →
    (c = .hailTaken dt ∧ b.answerTo = none) ∨ (c = .answerTaken dt ∧ b.answerTo ≠ none) →
    (s.join.state = .joined → ∃ t q, exec c s = .next t ∧ t.line.accepted = rest ∧ peerAt t a.source = some q ∧ q.lastHeard = some a.endMs
        ∧ q.joinShown = some b.join ∧ q.roles = b.roles ∧ q.lastStatus = p.lastStatus
        ∧ (b.digest ≠ s.digest → q.state = .mismatched)
        ∧ (b.digest = s.digest → b.join = .lockedOut → q.state = if b.answerTo = none ∨ p.state = .unheard ∨ p.state = .mismatched then .stale else p.state)
        ∧ (b.digest = s.digest → b.join ≠ .lockedOut → b.answerTo = none ∨ (p.state ≠ .live ∧ p.state ≠ .stale) → q.state = .hailing)
        ∧ (b.digest = s.digest → b.join ≠ .lockedOut → b.answerTo ≠ none → p.state = .live ∨ p.state = .stale → q.state = p.state)
        ∧ (b.answerTo = none → QueueLaw s → underway t (.answer a.source)))
      ∧ (s.join.state = .hailing ∨ s.join.state = .calibrating → s.join.firstHailSent = false → ∃ t, exec c s = .next t
          ∧ t.join.verdicts = s.join.verdicts.map (fun e => if e.1 = a.source then (a.source, if b.digest = s.digest then .equal else .different) else e))

/-- A reset order applied (R60 to R62), by RESET_ORDER_TAKEN or by RESET_SECTION in JOINED, which answers DONE and broadcasts it: the record is
emptied, its baselines are the latest counts, and it is RESTORING after SWEEP, CLEAR after DIRECT, which asks for both bounding DPs WORKING with
clear heads and for the key. In declared lockout, where sections stay UNKNOWN or RESTORING (R190), this holds of a SWEEP order for a RESTORING
section. -/
def Obligations.ResetOrderEmptiesTheSection : Prop :=
  ∀ (dt sec : Nat) (kind : ResetKind) (key : Bool) (c : Instr) (s : State) (r : Sect), s.powered = true → sectAt s sec = some r →
    r.state ≠ .clear → r.state ≠ .occupied → kind = .sweep ∨ (key = true ∧ sectProven s sec = true) → s.phase.releaseExpired = false →
    declaredLockout s = false ∨ (kind = .sweep ∧ r.state = .restoring) →
    (c = .resetSection dt sec kind ∧ portTaken s = false ∧ s.join.state = .joined ∧ key = keyActive s)
      ∨ (c = .resetOrderTaken dt ∧ ∃ a rest, s.line.accepted = a :: rest ∧ a.body = .service { sec := sec, kind := kind, key := key }) →
    ∃ t q, exec c s = .next t ∧ sectAt t sec = some q ∧ q.balance = 0 ∧ q.tag = none ∧ q.deadline = none ∧ q.t0 = none ∧ q.strikes = 0
      ∧ q.held = false ∧ q.sweepAxles = 0 ∧ q.underlying = none ∧ q.awaited = [] ∧ q.baseOuter = latestOf s (outerDpOf sec)
      ∧ q.baseInner = latestOf s (innerDpOf sec) ∧ q.state = (if kind = .sweep then .restoring else .clear)
      ∧ (c = .resetSection dt sec kind → t.port.reply = some { code := .done, content := .empty } ∧ (QueueLaw s → underway t (.order sec kind key)))
      ∧ (c = .resetOrderTaken dt → t.line.accepted = s.line.accepted.drop 1)

/-- Reset orders refused (R60, R61): RESET_SECTION answers UNKNOWN_ITEM without the section, REFUSED_STATE outside JOINED or for a CLEAR or
OCCUPIED section, for DIRECT REFUSED_KEY without the key and REFUSED_STATE where a bounding DP is not proven, in this order; a received order that
may not be applied has no effect. In declared lockout every order is such a one that would move a section out of its state (R190; log 70, the
model's choice). -/
def Obligations.ResetOrdersAreRefused : Prop :=
  (∀ (dt sec : Nat) (kind : ResetKind) (s : State) (code : ReplyCode), s.powered = true → portTaken s = false → s.join.state ≠ .loading →
    (sectAt s sec = none ∧ code = .unknownItem)
      ∨ (∃ r, sectAt s sec = some r ∧ (s.join.state ≠ .joined ∨ r.state = .clear ∨ r.state = .occupied) ∧ code = .refusedState)
      ∨ (∃ r, sectAt s sec = some r ∧ s.join.state = .joined ∧ r.state ≠ .clear ∧ r.state ≠ .occupied ∧ kind = .direct
          ∧ ((keyActive s = false ∧ code = .refusedKey) ∨ (keyActive s = true ∧ sectProven s sec = false ∧ code = .refusedState))) →
    ∃ t, exec (.resetSection dt sec kind) s = .next t
      ∧ Concluded { advance dt s with port := { s.port with cmd := some (.resetSection sec kind), reply := some { code := code, content := .empty },
                                                            rx := [] } } t)
    ∧ ∀ (dt : Nat) (s : State) (a : Accepted) (rest : List Accepted) (b : OrderBody), s.powered = true → s.line.accepted = a :: rest →
        a.body = .service b →
        (∀ r : Sect, sectAt s b.sec = some r →
            r.state = .clear ∨ r.state = .occupied ∨ (b.kind = .direct ∧ (b.key = false ∨ sectProven s b.sec = false))
              ∨ (declaredLockout s = true ∧ ¬(b.kind = .sweep ∧ r.state = .restoring))) →
        ∃ t, exec (.resetOrderTaken dt) s = .next t ∧ Concluded { advance dt s with line := { s.line with accepted := rest } } t

/-- Joining (R88, R91, R92, R159): HAIL_TIMER asks for a further HAIL and moves 200 ms on; JOIN_WINDOW_END leads to JOINED, where the majority test
passes, with every UNHEARD peer STALE, a STATUS under way and the phase out of STARTING; where it is lost, to LOCKED_OUT with only a HAIL left in the
queue, the frame in flight not retried, and at a post the fallback's pattern and RELEASE. The first HAIL sent completes the join where every verdict
is EQUAL (R91): FRAME_ATTEMPT_END of the first HAIL in HAILING leads to JOINED and the phase out of STARTING; where some verdict is still open or
DIFFERENT, it only notes that the first HAIL is sent. That the first HAIL of a lockout by majority goes 200 ms after it is log 32, that a frame lasts
its bits to the nearest microsecond log 34, the model's choices. -/
def Obligations.JoiningEndsInJoinedOrLockedOut : Prop :=
  (∀ (dt : Nat) (s : State), s.powered = true →
      (s.join.state = .hailing ∨ s.join.state = .lockedOut → s.join.blind = false → reached (advance dt s).clock.ms s.join.nextHail = true → QueueLaw s →
          ∃ t, exec (.hailTimer dt) s = .next t ∧ underway t .hail ∧ t.join = { s.join with nextHail := later s.join.nextHail 200 }
            ∧ KeptBut (.join :: watchedParts) (advance dt s) t)
        ∧ (∀ c : Time, s.join.state = .hailing → s.join.windowStart = some c → s.cfg.timing.joinWindow ≤ ((advance dt s).clock.ms - c).toNat →
            s.phase.phase = .starting → s.seq.state = .idle →
            (countVerdicts .different s = 0 ∨ countVerdicts .different s ≤ countVerdicts .equal s → ∃ t, exec (.joinWindowEnd dt) s = .next t
                ∧ t.join = { s.join with state := .joined, windowStart := none } ∧ t.phase.phase ≠ .starting
                ∧ ((s.peers.map (·.station)).Nodup → ∀ (n : Nat) (p : Peer), peerAt s n = some p → ∃ q, peerAt t n = some q
                    ∧ q.state = if p.state = .unheard then .stale else p.state)
                ∧ (QueueLaw s → underway t .status))
              ∧ (0 < countVerdicts .different s → countVerdicts .equal s < countVerdicts .different s → ∃ t, exec (.joinWindowEnd dt) s = .next t
                  ∧ t.join = { s.join with state := .lockedOut, windowStart := none, nextHail := later (advance dt s).clock.ms 200,
                                           lowerStart := some (advance dt s).clock.ms }
                  ∧ (∀ i ∈ t.line.queue, i.what = .hail)
                  ∧ (∀ f : Flight, s.line.flight = some f → t.line.flight = some { f with noRetry := true })
                  ∧ t.phase.phase = .starting
                  ∧ (isPost s = true → t.lights.amber = false ∧ t.lights.red = .alternate ∧ t.barrier.command = .release))))
    ∧ (∀ (dt : Nat) (s : State) (f : Flight), s.powered = true → s.line.flight = some f → f.item.what = .hail → f.drivingA = true ∨ f.drivingB = true →
      (f.bytes.length * 15625 + 30) / 60 ≤ ((advance dt s).clock.us - f.startUs).toNat → s.join.state = .hailing → s.join.firstHailSent = false →
      s.phase.phase = .starting → s.line.gapEnd = none →
      ((∀ e ∈ s.join.verdicts, e.2 = .equal) → ∃ t, exec (.frameAttemptEnd dt) s = .next t
          ∧ t.join = { s.join with firstHailSent := true, state := .joined, windowStart := none } ∧ t.phase.phase ≠ .starting
          ∧ t.line.flight = none ∧ statusQueued t = true)
        ∧ ((∃ e ∈ s.join.verdicts, e.2 ≠ .equal) → ∃ t, exec (.frameAttemptEnd dt) s = .next t
          ∧ t.join = { s.join with firstHailSent := true } ∧ t.phase.phase = .starting ∧ t.line.flight = none ∧ t.line.queue = s.line.queue))

/-- PEER_AGE_TIMEOUT (R41, R54, R96, R98, R107, R111): a LIVE peer whose age exceeds the peer timeout becomes STALE with PEER_LOST, its DPs LOST in
the DP view, every section they bound that was CLEAR, OCCUPIED or RESTORING UNKNOWN with that state underlying and the peer awaited, and the phase
FAILED; a HAILING one becomes STALE once last heard longer ago than the timeout. Where no failure demand stood before, the move fills an empty
first-fault record with the time, PEER_LOST as its cause, the phase before and a LIVE mask without the peer (R124, R184, R185). -/
def Obligations.SilentPeerIsLost : Prop :=
  ∀ (dt n : Nat) (s : State) (p : Peer), s.powered = true → peerAt s n = some p → s.join.state = .joined → s.conds.length ≤ 16 →
    s.sections.length ≤ 6 → (s.sections.map (·.id)).Nodup → s.phase.phase ≠ .starting →
    (∀ g : Nat, p.state = .live → p.age = some g →
        s.cfg.timing.statusPeriod * s.cfg.timing.timeoutFactor < min (g + (s.clock.frac + dt) / 1000) (2 ^ 30) →
        ∃ t q, exec (.peerAgeTimeout dt n) s = .next t ∧ peerAt t n = some q ∧ q.state = .stale ∧ q.phase = p.phase ∧ q.dps = p.dps
          ∧ hasCond t (condOf .peerLost n 0) = true
          ∧ t.view = s.view.map (fun v => if v.owner = n then { v with state := .lost } else v)
          ∧ (∀ r ∈ s.sections, (∃ d ∈ dpsOf s n, r.id ∈ boundedBy d) → r.state = .clear ∨ r.state = .occupied ∨ r.state = .restoring →
              ∃ q, sectAt t r.id = some q ∧ q.state = .unknown ∧ q.underlying = some r.state ∧ q.awaited = [n] ∧ q.balance = r.balance)
          ∧ (∀ r ∈ s.sections, (∃ d ∈ dpsOf s n, r.id ∈ boundedBy d) → r.state = .disturbed →
              ∃ q, sectAt t r.id = some q ∧ q.state = .disturbed)
          ∧ t.phase.phase = .failed
          ∧ (failureDemand s = false → s.phase.phase ≠ .failed → s.firstFault = none → n < 16 → n ≠ s.cfg.own →
              (s.peers.map (·.station)).Nodup → ∃ r, t.firstFault = some r
                ∧ r.time = (advance dt s).clock.ms ∧ r.cause = some (condOf .peerLost n 0) ∧ r.before = s.phase.phase ∧ n ∉ r.live))
      ∧ (∀ h : Time, p.state = .hailing → p.lastHeard = some h →
          s.cfg.timing.statusPeriod * s.cfg.timing.timeoutFactor < ((advance dt s).clock.ms - h).toNat →
          ∃ t q, exec (.peerAgeTimeout dt n) s = .next t ∧ peerAt t n = some q ∧ q.state = .stale ∧ hasCond t (condOf .peerLost n 0) = true
            ∧ t.view = s.view ∧ t.phase.phase = .failed)

/-- AGREEMENT_TOLERANCE_REACHED (R101): the peer whose mismatch has stood for the agreement tolerance raises PEER_DISAGREES, once for the present run
of differences; nothing else of its entry changes. -/
def Obligations.StandingMismatchRaisesPeerDisagrees : Prop :=
  ∀ (dt n : Nat) (s : State) (p : Peer) (c : Time), s.powered = true → peerAt (advance dt s) n = some p → p.mismatchSince = some c →
    s.conds.length < 31 →
    (p.tolerancePassed = false → reached (advance dt s).clock.ms (later c s.cfg.timing.tolerance) = true →
        ∃ t, exec (.agreementToleranceReached dt n) s = .next t ∧ peerAt t n = some { p with tolerancePassed := true }
          ∧ hasCond t (condOf .peerDisagrees n 0) = true ∧ KeptBut (.peers :: .conds :: watchedParts) (advance dt s) t)
      ∧ (p.tolerancePassed = true ∨ reached (advance dt s).clock.ms (later c s.cfg.timing.tolerance) = false →
          ∃ t, exec (.agreementToleranceReached dt n) s = .next t ∧ Concluded (advance dt s) t)

/-! ### The signaller line (chapter 09) -/

/-- The transmitter (R165 to R168, R182). INDICATION_DUE moves the due time 1000 ms on and starts the INDICATION with its fields, at once where no
frame is in flight, else marks it due. NOTICE_SPACING_END starts the NOTICE of the first change-pending entry 200 ms after the last frame's end and
clears its mark. SIGNALLER_FRAME_END notes the end time; after a NOTICE the sent report makes an INFO entry GONE and lets a GONE entry leave, where
its state is still the one sent. That a frame lasts 1,042 us a byte is log 34, that the grid counts from the due times log 1, the model's choices. -/
def Obligations.TransmitterKeepsItsGrid : Prop :=
  ∀ (dt : Nat) (s : State), s.powered = true → s.sig.started = true →
    (∀ d : Time, s.sig.due = some d → reached (advance dt s).clock.ms d = true →
        (s.sig.flight = none → ∃ t, exec (.indicationDue dt) s = .next t ∧ t.sig.due = some (later d 1000) ∧ t.sig.dueMark = false
            ∧ t.sig.flight = some { what := .indication, bytes := (indicationFields t).bytes, startUs := (advance dt s).clock.us }
            ∧ t.notices = s.notices ∧ KeptBut watchedParts (advance dt s) t)
          ∧ (∀ f : SigFlight, s.sig.flight = some f → ∃ t, exec (.indicationDue dt) s = .next t
            ∧ Concluded { advance dt s with sig := { s.sig with due := some (later d 1000), dueMark := true } } t ∧ t.sig.flight = some f
            ∧ t.sig.dueMark = true))
      ∧ (∀ (e : Time) (n : Notice), s.sig.flight = none → s.sig.dueMark = false → s.sig.lastEnd = some e →
          s.sig.due.any (reached (advance dt s).clock.ms) = false → s.notices.entries.find? (·.pend) = some n →
          (200 ≤ ((advance dt s).clock.ms - e).toNat → ∃ t, exec (.noticeSpacingEnd dt) s = .next t
              ∧ t.sig.flight = some { what := .notice n.id n.state, bytes := noticeBytes n.id n.state, startUs := (advance dt s).clock.us }
              ∧ t.notices = { s.notices with entries := s.notices.entries.map fun m => if m.id = n.id then { m with pend := false } else m }
              ∧ KeptBut watchedParts (advance dt s) t)
            ∧ (((advance dt s).clock.ms - e).toNat < 200 → ∃ t, exec (.noticeSpacingEnd dt) s = .next t ∧ t.sig = s.sig ∧ t.notices = s.notices
              ∧ KeptBut watchedParts (advance dt s) t))
      ∧ (∀ f : SigFlight, s.sig.flight = some f → s.sig.dueMark = false → f.bytes.length * 1042 ≤ ((advance dt s).clock.us - f.startUs).toNat →
          ∃ t, exec (.signallerFrameEnd dt) s = .next t ∧ t.sig = { s.sig with flight := none, lastEnd := some (advance dt s).clock.ms }
            ∧ KeptBut watchedParts (advance dt s) t
            ∧ (f.what = .indication → t.notices = s.notices)
            ∧ ∀ (id : CondId) (st : NoticeState), f.what = .notice id st →
                (∀ e : Notice, s.notices.entries.find? (fun n => n.id == id) = some e →
                    (e.state ≠ st ∨ e.pend = true → t.notices = s.notices)
                      ∧ (e.state = st → e.pend = false → st = .gone → id ∉ s.notices.present → hasNotice t.notices.entries id = false)
                      ∧ (e.state = st → e.pend = false → st ≠ .gone → id.kind.cls = 3 →
                          t.notices.entries.find? (fun n => n.id == id) = some { e with state := .gone, pend := true })
                      ∧ (e.state = st → e.pend = false → st ≠ .gone → id.kind.cls ≠ 3 → t.notices = s.notices)))

/-- The box's frames (R169 to R171, R200). ACK moves every RAISED entry of its class to ACKED and every CLEARED one to GONE, each change-pending;
QUERY makes every entry change-pending; of these marks the one whose NOTICE starts at once is cleared again. Bytes before the start byte are
passed over. A frame with more than 20 ms between two of its bytes is no ACK and no QUERY: neither command then does anything.
SIGNALLER_BYTE_TIMEOUT discards a frame whose next byte has not come within 20 ms, not before; it and SIGNALLER_FRAME_MALFORMED leave the bytes
after the fault for the next frame and do nothing else. That the bytes reach the part with the command that they complete is log 30, the model's
choice. -/
def Obligations.BoxFramesAreTaken : Prop :=
  (∀ (dt : Nat) (noise frame : List RxByte) (cls : Fin 4) (s : State), s.powered = true → s.sig.started = true → s.sig.rx = [] →
    (∀ x ∈ noise, x.byte ≠ 165#8) →
    (unbroken frame = true → frame.map (·.byte) = sigFrame [1#8, BitVec.ofNat 8 cls.val] → ∃ t, exec (.ack dt (noise ++ frame)) s = .next t
        ∧ t.sig.rx = []
        ∧ t.notices.entries.map (fun n => (n.id, n.state)) = s.notices.entries.map (fun n => (n.id,
            if n.id.kind.cls = cls.val then (match n.state with
              | .raised => .acked
              | .cleared => .gone
              | .acked => .acked
              | .gone => .gone) else n.state))
        ∧ (∀ n ∈ s.notices.entries, n.id.kind.cls = cls.val → n.state = .raised ∨ n.state = .cleared →
            (∃ m ∈ t.notices.entries, m.id = n.id ∧ m.pend = true) ∨ ∃ f st, t.sig.flight = some f ∧ f.what = .notice n.id st)
        ∧ t.notices.present = s.notices.present ∧ KeptBut watchedParts (advance dt s) t)
      ∧ (unbroken frame = true → frame.map (·.byte) = sigFrame [2#8] → ∃ t, exec (.query dt (noise ++ frame)) s = .next t ∧ t.sig.rx = []
        ∧ t.notices.entries.map (fun n => (n.id, n.state)) = s.notices.entries.map (fun n => (n.id, n.state))
        ∧ (∀ n ∈ t.notices.entries, n.pend = true ∨ ∃ f st, t.sig.flight = some f ∧ f.what = .notice n.id st)
        ∧ t.notices.present = s.notices.present ∧ KeptBut watchedParts (advance dt s) t)
      ∧ (unbroken frame = false → frame.map (·.byte) = sigFrame [1#8, BitVec.ofNat 8 cls.val] ∨ frame.map (·.byte) = sigFrame [2#8] →
          (∃ t, exec (.ack dt (noise ++ frame)) s = .next t ∧ Concluded (advance dt s) t)
            ∧ ∃ t, exec (.query dt (noise ++ frame)) s = .next t ∧ Concluded (advance dt s) t))
    ∧ (∀ (dt : Nat) (bytes part : List RxByte) (x : RxByte) (body more : List Byte) (s : State), s.powered = true → s.sig.started = true →
      s.sig.rx ++ bytes = part ++ [x] → unbroken (part ++ [x]) = true → body.length = 1 ∨ body.length = 2 → more ≠ [] →
      (part ++ [x]).map (·.byte) ++ more = sigFrame body →
      (20000 < ((advance dt s).clock.us - x.time).toNat → ∃ t, exec (.signallerByteTimeout dt bytes) s = .next t
          ∧ Concluded { advance dt s with sig := { s.sig with rx := [] } } t)
        ∧ (((advance dt s).clock.us - x.time).toNat ≤ 20000 → ∃ t, exec (.signallerByteTimeout dt bytes) s = .next t
          ∧ Concluded (advance dt s) t))
    ∧ ∀ (dt : Nat) (bytes left : List RxByte) (s : State), s.powered = true → s.sig.started = true →
        (readInward (advance dt s).clock.us (s.sig.rx ++ bytes) = (.timeout, left) → ∃ t, exec (.signallerByteTimeout dt bytes) s = .next t
            ∧ Concluded { advance dt s with sig := { s.sig with rx := left } } t)
          ∧ (readInward (advance dt s).clock.us (s.sig.rx ++ bytes) = (.malformed, left) → ∃ t, exec (.signallerFrameMalformed dt bytes) s = .next t
            ∧ Concluded { advance dt s with sig := { s.sig with rx := left } } t)

/-! ### The maintainer port (chapter 11) -/

/-- The reading commands at a free port outside LOADING (R5, R103, R187, R195, R196): each answers DONE with the state it names; SHOW DETECTION then
clears the edge flags, READ LATCHES the latches, READ MISMATCHES the sticky fields; SHOW NOTICES is UNKNOWN_ITEM without the signaller line. Nothing
else changes. In LOADING each of them and the acting commands but RESTART is answered REFUSED_STATE without an effect. The content of a reply is held
as fields, not as text (log 29, the model's choice). -/
def Obligations.ReadingCommandsAnswer : Prop :=
  ∀ (dt : Nat) (s : State), s.powered = true → portTaken s = false →
    (s.join.state ≠ .loading →
        (∃ t, exec (.showPeers dt) s = .next t
            ∧ Concluded (noted .showPeers .done (.peers s.join.state (advance dt s).peers s.join.verdicts) (advance dt s)) t)
          ∧ (∃ t, exec (.showSections dt) s = .next t
            ∧ Concluded (noted .showSections .done (.sections s.sections (wholeView s) s.key.level) (advance dt s)) t)
          ∧ (∃ t, exec (.showDetection dt) s = .next t
            ∧ Concluded { noted .showDetection .done (.detection (s.dps.map DpUnit.line)) (advance dt s) with
                dps := s.dps.map fun u => { u with first := { u.first with coverSeen := false, clearSeen := false },
                                                   second := { u.second with coverSeen := false, clearSeen := false } } } t)
          ∧ (hasSignaller s = true → ∃ t, exec (.showNotices dt) s = .next t
            ∧ Concluded (noted .showNotices .done (.notices s.notices.entries s.notices.present.length s.notices.saturated) (advance dt s)) t)
          ∧ (hasSignaller s = false → ∃ t, exec (.showNotices dt) s = .next t
            ∧ Concluded (noted .showNotices .unknownItem .empty (advance dt s)) t)
          ∧ (∃ t, exec (.showFirstFault dt) s = .next t
            ∧ Concluded (noted .showFirstFault .done (.firstFault s.firstFault) (advance dt s)) t)
          ∧ (∃ t, exec (.readLatches dt) s = .next t ∧ (∀ l : Latch, t.latches.has l = false)
            ∧ Concluded { noted .readLatches .done (.latches s.latches) (advance dt s) with latches := t.latches } t)
          ∧ ∃ t, exec (.readMismatches dt) s = .next t
            ∧ Concluded { noted .readMismatches .done (.mismatches (s.peers.map Peer.mismatchLine)) (advance dt s) with
                peers := (advance dt s).peers.map fun p => { p with stickyPhase := false, stickySections := false, stickyHealth := false } } t)
      ∧ (s.join.state = .loading → ∀ (n : Nat) (k : ResetKind), ∀ e ∈ [(Instr.showPeers dt, PortCmd.showPeers), (.showSections dt, .showSections),
            (.showDetection dt, .showDetection), (.showNotices dt, .showNotices), (.showFirstFault dt, .showFirstFault), (.readLatches dt, .readLatches),
            (.readMismatches dt, .readMismatches), (.calibrate dt n, .calibrate n), (.resetSection dt n k, .resetSection n k),
            (.clearFirstFault dt, .clearFirstFault)],
          ∃ t, exec e.1 s = .next t ∧ Concluded (noted e.2 .refusedState .empty (advance dt s)) t)

/-- CALIBRATE at a free port outside LOADING (R7, R9, R13, R195): UNKNOWN_ITEM for a DP that is not the station's own; a WORKING DP with its
recogniser IDLE and CLEAR sections starts a COMMANDED sweep and the reply waits; a FAULTED one with both supplies NORMAL and no head with a
threshold COVERED starts a RECOVERY sweep; else REFUSED_STATE. That the nearer head's pending run is emptied at the start of its sweep is log 50,
the model's choice. -/
def Obligations.CalibrateStartsASweepOrIsRefused : Prop :=
  ∀ (dt id : Nat) (s : State), s.powered = true → portTaken s = false → s.join.state ≠ .loading →
    (ownDp s id = none → ∃ t, exec (.calibrate dt id) s = .next t ∧ Concluded (noted (.calibrate id) .unknownItem .empty (advance dt s)) t)
      ∧ ∀ u : DpUnit, ownDp s id = some u → dpAt s u.slot = some u →
        (u.state = .working → u.recog.state = .idle → (∀ i ∈ boundedBy id, ∃ r, sectAt s i = some r ∧ r.state = .clear) →
            ∃ t, exec (.calibrate dt id) s = .next t
              ∧ Concluded (putDp { u.mapHead (fun h => { h with run := 0 }) u.nearer with
                  due := false, state := .calibrating,
                  sweep := some { kind := .commanded, onOther := false, trial := 0, windowStart := (advance dt s).clock.us, waiting := false,
                                  abandons := 0, wasDue := u.due, nearResult := none } }
                  { advance dt s with port := { s.port with cmd := some (.calibrate id), reply := none, rx := [] } }) t)
          ∧ (u.state = .faulted → u.first.supply = .normal → u.second.supply = .normal →
              (u.first.threshold = none ∨ u.first.covered = false) → (u.second.threshold = none ∨ u.second.covered = false) →
              ∃ t v w, exec (.calibrate dt id) s = .next t ∧ dpAt t u.slot = some v ∧ v.state = .calibrating ∧ v.sweep = some w ∧ w.kind = .recovery
                ∧ v.due = u.due ∧ hasCond t (condOf .dpFaulted id 0) = false ∧ t.port = { s.port with cmd := some (.calibrate id), reply := none, rx := [] }
                ∧ KeptBut (.dps :: .port :: .conds :: watchedParts) (advance dt s) t)
          ∧ (u.state = .calibrating
              ∨ (u.state = .working ∧ (u.recog.state ≠ .idle ∨ ∃ i ∈ boundedBy id, ∀ r, sectAt s i = some r → r.state ≠ .clear))
              ∨ (u.state = .faulted ∧ (u.first.supply ≠ .normal ∨ u.second.supply ≠ .normal))
              ∨ (u.state = .faulted ∧ ((u.first.threshold ≠ none ∧ u.first.covered = true) ∨ (u.second.threshold ≠ none ∧ u.second.covered = true))) →
              ∃ t, exec (.calibrate dt id) s = .next t ∧ Concluded (noted (.calibrate id) .refusedState .empty (advance dt s)) t)

/-- The other commands of the port (R186, R194, R195, R197). CLEAR FIRST FAULT empties the record; RESTART is answered DONE in every join state, and
at the end of its reply every block is reset but the latches, the first-fault record and the memory, where a LOADING cut short has counted its
start (log 7, the model's choice); a line that is no command is UNKNOWN_ITEM; a line at a taken port makes BUSY wait behind the reply, once; a
line broken off by a silence of 2 s is neither, and is discarded by COMMAND_TIMEOUT once the 2 s have passed, not before; the end of a reply frees
the port and lets a waiting BUSY be sent. That the bytes of a line come with the command that they complete is log 30, that those after a silence
begin another command log 62, the model's choices. -/
def Obligations.OtherPortCommandsAnswer : Prop :=
  ∀ (dt : Nat) (bytes : List RxByte) (s : State), s.powered = true →
    (portTaken s = false → s.join.state ≠ .loading → ∃ t, exec (.clearFirstFault dt) s = .next t
        ∧ Concluded { noted .clearFirstFault .done .empty (advance dt s) with firstFault := none } t)
      ∧ (portTaken s = false → ∃ t, exec (.restart dt) s = .next t ∧ Concluded (noted .restart .done .empty (advance dt s)) t)
      ∧ (∀ (part : List RxByte) (cr : RxByte), s.port.rx ++ bytes = part ++ [cr] → cr.byte = 13#8 → (∀ x ∈ part, x.byte ≠ 13#8) →
          (flowing (part ++ [cr]) = true → portTaken s = false → s.join.state ≠ .loading → parseLine (part ++ [cr]) = none →
              ∃ t, exec (.unknownCommand dt bytes) s = .next t ∧ Concluded (noted .unknown .unknownItem .empty (advance dt s)) t)
            ∧ (flowing (part ++ [cr]) = true → portTaken s = true → ∃ t, exec (.commandWhileBusy dt bytes) s = .next t
              ∧ Concluded { advance dt s with port := { s.port with rx := [], busy := if s.port.busy = .none then .waiting else s.port.busy } } t)
            ∧ (flowing (part ++ [cr]) = false → (∃ t, exec (.unknownCommand dt bytes) s = .next t ∧ Concluded (advance dt s) t)
              ∧ ∃ t, exec (.commandWhileBusy dt bytes) s = .next t ∧ Concluded (advance dt s) t))
      ∧ (∀ (part late : List RxByte) (x : RxByte), s.port.rx ++ bytes = part ++ x :: late → flowing (part ++ [x]) = true →
          (∀ y ∈ part ++ [x], y.byte ≠ 13#8) →
          (∀ y rest, late = y :: rest → 2000000 ≤ (y.time - x.time).toNat → ∃ t, exec (.commandTimeout dt bytes) s = .next t
              ∧ Concluded { advance dt s with port := { s.port with rx := late } } t)
            ∧ (late = [] → 2000000 ≤ ((advance dt s).clock.us - x.time).toNat → ∃ t, exec (.commandTimeout dt bytes) s = .next t
              ∧ Concluded { advance dt s with port := { s.port with rx := [] } } t)
            ∧ (late = [] → ((advance dt s).clock.us - x.time).toNat < 2000000 → ∃ t, exec (.commandTimeout dt bytes) s = .next t
              ∧ Concluded (advance dt s) t))
      ∧ (s.port.busy = .sending → ∃ t, exec (.maintainerReplyEnd dt) s = .next t
          ∧ Concluded { advance dt s with port := { s.port with busy := .none } } t)
      ∧ (s.port.busy ≠ .sending → s.port.reply ≠ none → s.port.cmd ≠ some .restart → ∃ t, exec (.maintainerReplyEnd dt) s = .next t
          ∧ Concluded { advance dt s with port := { s.port with
              cmd := none, reply := none, busy := if s.port.busy = .waiting then .sending else .none } } t)
      ∧ (s.port.busy ≠ .sending → s.port.reply ≠ none → s.port.cmd = some .restart → ∃ t, exec (.maintainerReplyEnd dt) s = .next t
          ∧ t = { State.reset with powered := true,
                                   mem := if s.join.state = .loading then Memory.write s.mem 0 (Memory.read s.mem 0 + 1) else s.mem,
                                   latches := s.latches, firstFault := s.firstFault, freeCount := s.freeCount,
                                   pending := s.pending })

/-! ### The start (chapter 11) and the frames of the line (chapter 12) -/

/-- LOADING_END with an image that passes (R40, R42, R71, R87, R88, R143, R148, R164, R165, R177, R189, R192, R193): the restart count has risen by
one and is written back at address 0, the image is in force with its digest, every section stands at its start value, every peer is UNHEARD, every
own DP is under its START sweep with the restart count as its epoch, reception has begun, the flash timebase starts at offset 0, the cold test
timers run where their lines are in use, a post shows its start outputs with the barrier undriven, the transmitter's grid and the notice list
start where the station has the signaller line, and the station is CALIBRATING, or HAILING where it has no own DP. -/
def Obligations.PassedImageStartsTheStation : Prop :=
  ∀ (dt : Nat) (s : State) (im : Image) (digest : Half) (clamped : Bool), s.powered = true → s.join.state = .loading → s.phase.phase = .starting →
    s.conds = [] → MemLaw s → loadCheck true true s.mem = .passed im digest clamped →
    ∃ t, exec (.loadingEnd dt true none) s = .next t ∧ t.restartCount = Memory.read s.mem 0 + 1 ∧ Memory.read t.mem 0 = t.restartCount
      ∧ (∀ a : Nat, a ≠ 0 → Memory.read t.mem a = Memory.read s.mem a) ∧ t.cfg = im ∧ t.digest = digest
      ∧ t.sections = (List.range (3 * im.tracks)).map (Sect.start im.startRestoring)
      ∧ (im.startRestoring = false → ∀ r ∈ t.sections, r.state = .unknown ∧ hasCond t (condOf .sectionUnknown r.id 0) = true)
      ∧ (im.startRestoring = true → ∀ r ∈ t.sections, r.state = .restoring)
      ∧ (∀ p ∈ t.peers, p.state = .unheard ∧ p.station ≠ im.own)
      ∧ (∀ u ∈ t.dps, u.state = .calibrating ∧ u.epoch = t.restartCount ∧ u.inn = 0 ∧ u.out = 0 ∧ ∃ w, u.sweep = some w ∧ w.kind = .start)
      ∧ t.dps.length = (im.dps.filter fun d => d.owner = im.own).length
      ∧ t.line.rxOn = true ∧ t.phase.phase = .starting ∧ hasCond t (condOf .configClamped im.own 0) = clamped
      ∧ t.join.state = (if t.dps = [] then .hailing else .calibrating)
      ∧ t.flash.mode = .running (advance dt s).clock.ms
      ∧ t.lights.coldStart = (if isPost t then some (advance dt s).clock.ms else none)
      ∧ t.dci.coldStart = (if isReport t then some (advance dt s).clock.ms else none)
      ∧ (isPost t = true → t.lights.amber = false ∧ t.lights.red = .alternate) ∧ t.barrier = s.barrier
      ∧ (hasSignaller t = true → t.sig.started = true ∧ t.notices.kept = true ∧ t.notices.present = presentSet t
          ∧ t.sig.due = some (advance dt s).clock.ms)
      ∧ (hasSignaller t = false → t.sig.started = s.sig.started ∧ t.notices.kept = s.notices.kept)

/-- LOADING_END with an image that fails (R92, R159, R190). An error outside the groups image and own entry gives a declared lockout: LOCKED_OUT
with the image in force, CONFIG_INVALID, a HAIL under way and another every 200 ms, and at a post the fallback's pattern with LOWER to follow. An
error in them, or no answer from the memory, gives a blind one: LOCKED_OUT with CONFIG_INVALID, nothing driven anew and no frame asked for. The
number that stands in a blind lockout's CONFIG_INVALID where none can be read, 0, is log 24, the model's choice; the join state of a declared
lockout is R92's. In a declared lockout sections stay UNKNOWN or RESTORING (R190): every command but a reset leaves the state of each as it is;
that this outweighs the reports, the loss of a peer and the reset orders that R92, R94 and R61 let through is log 70, the model's choice. -/
def Obligations.FailedImageLocksTheStationOut : Prop :=
  (∀ (dt : Nat) (answers : Bool) (rb : Option Byte) (s : State), s.powered = true → s.join.state = .loading → s.phase.phase = .starting → s.conds = [] →
    s.join.blind = false →
    (∀ (im : Image) (digest : Half) (clamped : Bool), loadCheck answers (readBackOk rb s) s.mem = .declared im digest clamped → QueueLaw s →
        ∃ t, exec (.loadingEnd dt answers rb) s = .next t ∧ t.join.state = .lockedOut ∧ t.join.blind = false ∧ t.join.declared = true ∧ t.cfg = im
          ∧ t.join.lowerStart = some (advance dt s).clock.ms ∧ t.join.nextHail = later (advance dt s).clock.ms 200
          ∧ hasCond t (condOf .configInvalid im.own 0) = true ∧ underway t .hail ∧ t.phase.phase = .starting
          ∧ (isPost t = true → t.lights.amber = false ∧ t.lights.red = .alternate))
      ∧ (∀ own : Nat, loadCheck answers (readBackOk rb s) s.mem = .blind own → ∃ t, exec (.loadingEnd dt answers rb) s = .next t
          ∧ t.join = { s.join with state := .lockedOut, blind := true } ∧ hasCond t (condOf .configInvalid own 0) = true
          ∧ t.cfg = s.cfg ∧ t.dps = s.dps ∧ t.sections = s.sections ∧ t.lights = s.lights ∧ t.barrier = s.barrier ∧ t.line.rxOn = s.line.rxOn
          ∧ t.line.queue = s.line.queue ∧ t.phase = s.phase)
      ∧ (answers = false → loadCheck answers (readBackOk rb s) s.mem = .blind 0))
    ∧ ∀ (c : Instr) (s t : State), exec c s = .next t → resets c s = false → declaredLockout s = true → (s.sections.map (·.id)).Nodup →
      (∀ r ∈ s.sections, r.state = .unknown ∨ r.state = .restoring) →
      declaredLockout t = true ∧ t.sections.map (·.state) = s.sections.map (·.state)

/-- The frames of the crossing line read back (R82 to R85, R198, R199; chapter 12): the bytes of a frame whose fields are in range are read as
that frame, every field at its value, and a station of its crossing judges them valid. That a DP report's last speed above 5,000 is in range is
log 64, that a condition entry's subject and item are held to no range of their kind log 68, that two DP reports may name one DP log 73, the
model's choices. -/
def Obligations.FramesReadBack : Prop :=
  ∀ f : Frame, f.wf = true → readFrame f.bytes = some f ∧ judgeFrame f.crossing f.bytes = .valid

end
end

