-- ==== Sys2Proof/Laws/State.lean ====
section
/-! SUPPORT. The fields of the state under each of the plain record updates: one lemma per field and update, all by `rfl`. -/

namespace Sys2Proof.Machine

@[simp] theorem advance_powered (dt : Nat) (s : State) : (advance dt s).powered = s.powered := rfl
@[simp] theorem advance_mem (dt : Nat) (s : State) : (advance dt s).mem = s.mem := rfl
@[simp] theorem advance_restartCount (dt : Nat) (s : State) : (advance dt s).restartCount = s.restartCount := rfl
@[simp] theorem advance_digest (dt : Nat) (s : State) : (advance dt s).digest = s.digest := rfl
@[simp] theorem advance_cfg (dt : Nat) (s : State) : (advance dt s).cfg = s.cfg := rfl
@[simp] theorem advance_dps (dt : Nat) (s : State) : (advance dt s).dps = s.dps := rfl
@[simp] theorem advance_sections (dt : Nat) (s : State) : (advance dt s).sections = s.sections := rfl
@[simp] theorem advance_view (dt : Nat) (s : State) : (advance dt s).view = s.view := rfl
@[simp] theorem advance_line (dt : Nat) (s : State) : (advance dt s).line = s.line := rfl
@[simp] theorem advance_join (dt : Nat) (s : State) : (advance dt s).join = s.join := rfl
@[simp] theorem advance_phase (dt : Nat) (s : State) : (advance dt s).phase = s.phase := rfl
@[simp] theorem advance_seq (dt : Nat) (s : State) : (advance dt s).seq = s.seq := rfl
@[simp] theorem advance_lights (dt : Nat) (s : State) : (advance dt s).lights = s.lights := rfl
@[simp] theorem advance_flash (dt : Nat) (s : State) : (advance dt s).flash = s.flash := rfl
@[simp] theorem advance_barrier (dt : Nat) (s : State) : (advance dt s).barrier = s.barrier := rfl
@[simp] theorem advance_dci (dt : Nat) (s : State) : (advance dt s).dci = s.dci := rfl
@[simp] theorem advance_conds (dt : Nat) (s : State) : (advance dt s).conds = s.conds := rfl
@[simp] theorem advance_changes (dt : Nat) (s : State) : (advance dt s).changes = s.changes := rfl
@[simp] theorem advance_notices (dt : Nat) (s : State) : (advance dt s).notices = s.notices := rfl
@[simp] theorem advance_sig (dt : Nat) (s : State) : (advance dt s).sig = s.sig := rfl
@[simp] theorem advance_latches (dt : Nat) (s : State) : (advance dt s).latches = s.latches := rfl
@[simp] theorem advance_firstFault (dt : Nat) (s : State) : (advance dt s).firstFault = s.firstFault := rfl
@[simp] theorem advance_port (dt : Nat) (s : State) : (advance dt s).port = s.port := rfl
@[simp] theorem advance_key (dt : Nat) (s : State) : (advance dt s).key = s.key := rfl
@[simp] theorem advance_freeCount (dt : Nat) (s : State) : (advance dt s).freeCount = s.freeCount := rfl
@[simp] theorem advance_pending (dt : Nat) (s : State) : (advance dt s).pending = s.pending := rfl

@[simp] theorem setLatch_clock (l : Latch) (s : State) : (setLatch l s).clock = s.clock := rfl
@[simp] theorem setLatch_powered (l : Latch) (s : State) : (setLatch l s).powered = s.powered := rfl
@[simp] theorem setLatch_mem (l : Latch) (s : State) : (setLatch l s).mem = s.mem := rfl
@[simp] theorem setLatch_restartCount (l : Latch) (s : State) : (setLatch l s).restartCount = s.restartCount := rfl
@[simp] theorem setLatch_digest (l : Latch) (s : State) : (setLatch l s).digest = s.digest := rfl
@[simp] theorem setLatch_cfg (l : Latch) (s : State) : (setLatch l s).cfg = s.cfg := rfl
@[simp] theorem setLatch_dps (l : Latch) (s : State) : (setLatch l s).dps = s.dps := rfl
@[simp] theorem setLatch_sections (l : Latch) (s : State) : (setLatch l s).sections = s.sections := rfl
@[simp] theorem setLatch_view (l : Latch) (s : State) : (setLatch l s).view = s.view := rfl
@[simp] theorem setLatch_line (l : Latch) (s : State) : (setLatch l s).line = s.line := rfl
@[simp] theorem setLatch_join (l : Latch) (s : State) : (setLatch l s).join = s.join := rfl
@[simp] theorem setLatch_peers (l : Latch) (s : State) : (setLatch l s).peers = s.peers := rfl
@[simp] theorem setLatch_phase (l : Latch) (s : State) : (setLatch l s).phase = s.phase := rfl
@[simp] theorem setLatch_seq (l : Latch) (s : State) : (setLatch l s).seq = s.seq := rfl
@[simp] theorem setLatch_lights (l : Latch) (s : State) : (setLatch l s).lights = s.lights := rfl
@[simp] theorem setLatch_flash (l : Latch) (s : State) : (setLatch l s).flash = s.flash := rfl
@[simp] theorem setLatch_barrier (l : Latch) (s : State) : (setLatch l s).barrier = s.barrier := rfl
@[simp] theorem setLatch_dci (l : Latch) (s : State) : (setLatch l s).dci = s.dci := rfl
@[simp] theorem setLatch_conds (l : Latch) (s : State) : (setLatch l s).conds = s.conds := rfl
@[simp] theorem setLatch_changes (l : Latch) (s : State) : (setLatch l s).changes = s.changes := rfl
@[simp] theorem setLatch_notices (l : Latch) (s : State) : (setLatch l s).notices = s.notices := rfl
@[simp] theorem setLatch_sig (l : Latch) (s : State) : (setLatch l s).sig = s.sig := rfl
@[simp] theorem setLatch_firstFault (l : Latch) (s : State) : (setLatch l s).firstFault = s.firstFault := rfl
@[simp] theorem setLatch_port (l : Latch) (s : State) : (setLatch l s).port = s.port := rfl
@[simp] theorem setLatch_key (l : Latch) (s : State) : (setLatch l s).key = s.key := rfl
@[simp] theorem setLatch_freeCount (l : Latch) (s : State) : (setLatch l s).freeCount = s.freeCount := rfl
@[simp] theorem setLatch_pending (l : Latch) (s : State) : (setLatch l s).pending = s.pending := rfl

@[simp] theorem putDp_clock (u : DpUnit) (s : State) : (putDp u s).clock = s.clock := rfl
@[simp] theorem putDp_powered (u : DpUnit) (s : State) : (putDp u s).powered = s.powered := rfl
@[simp] theorem putDp_mem (u : DpUnit) (s : State) : (putDp u s).mem = s.mem := rfl
@[simp] theorem putDp_restartCount (u : DpUnit) (s : State) : (putDp u s).restartCount = s.restartCount := rfl
@[simp] theorem putDp_digest (u : DpUnit) (s : State) : (putDp u s).digest = s.digest := rfl
@[simp] theorem putDp_cfg (u : DpUnit) (s : State) : (putDp u s).cfg = s.cfg := rfl
@[simp] theorem putDp_sections (u : DpUnit) (s : State) : (putDp u s).sections = s.sections := rfl
@[simp] theorem putDp_view (u : DpUnit) (s : State) : (putDp u s).view = s.view := rfl
@[simp] theorem putDp_line (u : DpUnit) (s : State) : (putDp u s).line = s.line := rfl
@[simp] theorem putDp_join (u : DpUnit) (s : State) : (putDp u s).join = s.join := rfl
@[simp] theorem putDp_peers (u : DpUnit) (s : State) : (putDp u s).peers = s.peers := rfl
@[simp] theorem putDp_phase (u : DpUnit) (s : State) : (putDp u s).phase = s.phase := rfl
@[simp] theorem putDp_seq (u : DpUnit) (s : State) : (putDp u s).seq = s.seq := rfl
@[simp] theorem putDp_lights (u : DpUnit) (s : State) : (putDp u s).lights = s.lights := rfl
@[simp] theorem putDp_flash (u : DpUnit) (s : State) : (putDp u s).flash = s.flash := rfl
@[simp] theorem putDp_barrier (u : DpUnit) (s : State) : (putDp u s).barrier = s.barrier := rfl
@[simp] theorem putDp_dci (u : DpUnit) (s : State) : (putDp u s).dci = s.dci := rfl
@[simp] theorem putDp_conds (u : DpUnit) (s : State) : (putDp u s).conds = s.conds := rfl
@[simp] theorem putDp_changes (u : DpUnit) (s : State) : (putDp u s).changes = s.changes := rfl
@[simp] theorem putDp_notices (u : DpUnit) (s : State) : (putDp u s).notices = s.notices := rfl
@[simp] theorem putDp_sig (u : DpUnit) (s : State) : (putDp u s).sig = s.sig := rfl
@[simp] theorem putDp_latches (u : DpUnit) (s : State) : (putDp u s).latches = s.latches := rfl
@[simp] theorem putDp_firstFault (u : DpUnit) (s : State) : (putDp u s).firstFault = s.firstFault := rfl
@[simp] theorem putDp_port (u : DpUnit) (s : State) : (putDp u s).port = s.port := rfl
@[simp] theorem putDp_key (u : DpUnit) (s : State) : (putDp u s).key = s.key := rfl
@[simp] theorem putDp_freeCount (u : DpUnit) (s : State) : (putDp u s).freeCount = s.freeCount := rfl
@[simp] theorem putDp_pending (u : DpUnit) (s : State) : (putDp u s).pending = s.pending := rfl

@[simp] theorem putPeer_clock (p : Peer) (s : State) : (putPeer p s).clock = s.clock := rfl
@[simp] theorem putPeer_powered (p : Peer) (s : State) : (putPeer p s).powered = s.powered := rfl
@[simp] theorem putPeer_mem (p : Peer) (s : State) : (putPeer p s).mem = s.mem := rfl
@[simp] theorem putPeer_restartCount (p : Peer) (s : State) : (putPeer p s).restartCount = s.restartCount := rfl
@[simp] theorem putPeer_digest (p : Peer) (s : State) : (putPeer p s).digest = s.digest := rfl
@[simp] theorem putPeer_cfg (p : Peer) (s : State) : (putPeer p s).cfg = s.cfg := rfl
@[simp] theorem putPeer_dps (p : Peer) (s : State) : (putPeer p s).dps = s.dps := rfl
@[simp] theorem putPeer_sections (p : Peer) (s : State) : (putPeer p s).sections = s.sections := rfl
@[simp] theorem putPeer_view (p : Peer) (s : State) : (putPeer p s).view = s.view := rfl
@[simp] theorem putPeer_line (p : Peer) (s : State) : (putPeer p s).line = s.line := rfl
@[simp] theorem putPeer_join (p : Peer) (s : State) : (putPeer p s).join = s.join := rfl
@[simp] theorem putPeer_phase (p : Peer) (s : State) : (putPeer p s).phase = s.phase := rfl
@[simp] theorem putPeer_seq (p : Peer) (s : State) : (putPeer p s).seq = s.seq := rfl
@[simp] theorem putPeer_lights (p : Peer) (s : State) : (putPeer p s).lights = s.lights := rfl
@[simp] theorem putPeer_flash (p : Peer) (s : State) : (putPeer p s).flash = s.flash := rfl
@[simp] theorem putPeer_barrier (p : Peer) (s : State) : (putPeer p s).barrier = s.barrier := rfl
@[simp] theorem putPeer_dci (p : Peer) (s : State) : (putPeer p s).dci = s.dci := rfl
@[simp] theorem putPeer_conds (p : Peer) (s : State) : (putPeer p s).conds = s.conds := rfl
@[simp] theorem putPeer_changes (p : Peer) (s : State) : (putPeer p s).changes = s.changes := rfl
@[simp] theorem putPeer_notices (p : Peer) (s : State) : (putPeer p s).notices = s.notices := rfl
@[simp] theorem putPeer_sig (p : Peer) (s : State) : (putPeer p s).sig = s.sig := rfl
@[simp] theorem putPeer_latches (p : Peer) (s : State) : (putPeer p s).latches = s.latches := rfl
@[simp] theorem putPeer_firstFault (p : Peer) (s : State) : (putPeer p s).firstFault = s.firstFault := rfl
@[simp] theorem putPeer_port (p : Peer) (s : State) : (putPeer p s).port = s.port := rfl
@[simp] theorem putPeer_key (p : Peer) (s : State) : (putPeer p s).key = s.key := rfl
@[simp] theorem putPeer_freeCount (p : Peer) (s : State) : (putPeer p s).freeCount = s.freeCount := rfl
@[simp] theorem putPeer_pending (p : Peer) (s : State) : (putPeer p s).pending = s.pending := rfl

@[simp] theorem mapPeer_clock (n : Nat) (f : Peer → Peer) (s : State) : (mapPeer n f s).clock = s.clock := rfl
@[simp] theorem mapPeer_powered (n : Nat) (f : Peer → Peer) (s : State) : (mapPeer n f s).powered = s.powered := rfl
@[simp] theorem mapPeer_mem (n : Nat) (f : Peer → Peer) (s : State) : (mapPeer n f s).mem = s.mem := rfl
@[simp] theorem mapPeer_restartCount (n : Nat) (f : Peer → Peer) (s : State) : (mapPeer n f s).restartCount = s.restartCount := rfl
@[simp] theorem mapPeer_digest (n : Nat) (f : Peer → Peer) (s : State) : (mapPeer n f s).digest = s.digest := rfl
@[simp] theorem mapPeer_cfg (n : Nat) (f : Peer → Peer) (s : State) : (mapPeer n f s).cfg = s.cfg := rfl
@[simp] theorem mapPeer_dps (n : Nat) (f : Peer → Peer) (s : State) : (mapPeer n f s).dps = s.dps := rfl
@[simp] theorem mapPeer_sections (n : Nat) (f : Peer → Peer) (s : State) : (mapPeer n f s).sections = s.sections := rfl
@[simp] theorem mapPeer_view (n : Nat) (f : Peer → Peer) (s : State) : (mapPeer n f s).view = s.view := rfl
@[simp] theorem mapPeer_line (n : Nat) (f : Peer → Peer) (s : State) : (mapPeer n f s).line = s.line := rfl
@[simp] theorem mapPeer_join (n : Nat) (f : Peer → Peer) (s : State) : (mapPeer n f s).join = s.join := rfl
@[simp] theorem mapPeer_phase (n : Nat) (f : Peer → Peer) (s : State) : (mapPeer n f s).phase = s.phase := rfl
@[simp] theorem mapPeer_seq (n : Nat) (f : Peer → Peer) (s : State) : (mapPeer n f s).seq = s.seq := rfl
@[simp] theorem mapPeer_lights (n : Nat) (f : Peer → Peer) (s : State) : (mapPeer n f s).lights = s.lights := rfl
@[simp] theorem mapPeer_flash (n : Nat) (f : Peer → Peer) (s : State) : (mapPeer n f s).flash = s.flash := rfl
@[simp] theorem mapPeer_barrier (n : Nat) (f : Peer → Peer) (s : State) : (mapPeer n f s).barrier = s.barrier := rfl
@[simp] theorem mapPeer_dci (n : Nat) (f : Peer → Peer) (s : State) : (mapPeer n f s).dci = s.dci := rfl
@[simp] theorem mapPeer_conds (n : Nat) (f : Peer → Peer) (s : State) : (mapPeer n f s).conds = s.conds := rfl
@[simp] theorem mapPeer_changes (n : Nat) (f : Peer → Peer) (s : State) : (mapPeer n f s).changes = s.changes := rfl
@[simp] theorem mapPeer_notices (n : Nat) (f : Peer → Peer) (s : State) : (mapPeer n f s).notices = s.notices := rfl
@[simp] theorem mapPeer_sig (n : Nat) (f : Peer → Peer) (s : State) : (mapPeer n f s).sig = s.sig := rfl
@[simp] theorem mapPeer_latches (n : Nat) (f : Peer → Peer) (s : State) : (mapPeer n f s).latches = s.latches := rfl
@[simp] theorem mapPeer_firstFault (n : Nat) (f : Peer → Peer) (s : State) : (mapPeer n f s).firstFault = s.firstFault := rfl
@[simp] theorem mapPeer_port (n : Nat) (f : Peer → Peer) (s : State) : (mapPeer n f s).port = s.port := rfl
@[simp] theorem mapPeer_key (n : Nat) (f : Peer → Peer) (s : State) : (mapPeer n f s).key = s.key := rfl
@[simp] theorem mapPeer_freeCount (n : Nat) (f : Peer → Peer) (s : State) : (mapPeer n f s).freeCount = s.freeCount := rfl
@[simp] theorem mapPeer_pending (n : Nat) (f : Peer → Peer) (s : State) : (mapPeer n f s).pending = s.pending := rfl

@[simp] theorem mapView_clock (d : Nat) (f : ViewEntry → ViewEntry) (s : State) : (mapView d f s).clock = s.clock := rfl
@[simp] theorem mapView_powered (d : Nat) (f : ViewEntry → ViewEntry) (s : State) : (mapView d f s).powered = s.powered := rfl
@[simp] theorem mapView_mem (d : Nat) (f : ViewEntry → ViewEntry) (s : State) : (mapView d f s).mem = s.mem := rfl
@[simp] theorem mapView_restartCount (d : Nat) (f : ViewEntry → ViewEntry) (s : State) : (mapView d f s).restartCount = s.restartCount := rfl
@[simp] theorem mapView_digest (d : Nat) (f : ViewEntry → ViewEntry) (s : State) : (mapView d f s).digest = s.digest := rfl
@[simp] theorem mapView_cfg (d : Nat) (f : ViewEntry → ViewEntry) (s : State) : (mapView d f s).cfg = s.cfg := rfl
@[simp] theorem mapView_dps (d : Nat) (f : ViewEntry → ViewEntry) (s : State) : (mapView d f s).dps = s.dps := rfl
@[simp] theorem mapView_sections (d : Nat) (f : ViewEntry → ViewEntry) (s : State) : (mapView d f s).sections = s.sections := rfl
@[simp] theorem mapView_line (d : Nat) (f : ViewEntry → ViewEntry) (s : State) : (mapView d f s).line = s.line := rfl
@[simp] theorem mapView_join (d : Nat) (f : ViewEntry → ViewEntry) (s : State) : (mapView d f s).join = s.join := rfl
@[simp] theorem mapView_peers (d : Nat) (f : ViewEntry → ViewEntry) (s : State) : (mapView d f s).peers = s.peers := rfl
@[simp] theorem mapView_phase (d : Nat) (f : ViewEntry → ViewEntry) (s : State) : (mapView d f s).phase = s.phase := rfl
@[simp] theorem mapView_seq (d : Nat) (f : ViewEntry → ViewEntry) (s : State) : (mapView d f s).seq = s.seq := rfl
@[simp] theorem mapView_lights (d : Nat) (f : ViewEntry → ViewEntry) (s : State) : (mapView d f s).lights = s.lights := rfl
@[simp] theorem mapView_flash (d : Nat) (f : ViewEntry → ViewEntry) (s : State) : (mapView d f s).flash = s.flash := rfl
@[simp] theorem mapView_barrier (d : Nat) (f : ViewEntry → ViewEntry) (s : State) : (mapView d f s).barrier = s.barrier := rfl
@[simp] theorem mapView_dci (d : Nat) (f : ViewEntry → ViewEntry) (s : State) : (mapView d f s).dci = s.dci := rfl
@[simp] theorem mapView_conds (d : Nat) (f : ViewEntry → ViewEntry) (s : State) : (mapView d f s).conds = s.conds := rfl
@[simp] theorem mapView_changes (d : Nat) (f : ViewEntry → ViewEntry) (s : State) : (mapView d f s).changes = s.changes := rfl
@[simp] theorem mapView_notices (d : Nat) (f : ViewEntry → ViewEntry) (s : State) : (mapView d f s).notices = s.notices := rfl
@[simp] theorem mapView_sig (d : Nat) (f : ViewEntry → ViewEntry) (s : State) : (mapView d f s).sig = s.sig := rfl
@[simp] theorem mapView_latches (d : Nat) (f : ViewEntry → ViewEntry) (s : State) : (mapView d f s).latches = s.latches := rfl
@[simp] theorem mapView_firstFault (d : Nat) (f : ViewEntry → ViewEntry) (s : State) : (mapView d f s).firstFault = s.firstFault := rfl
@[simp] theorem mapView_port (d : Nat) (f : ViewEntry → ViewEntry) (s : State) : (mapView d f s).port = s.port := rfl
@[simp] theorem mapView_key (d : Nat) (f : ViewEntry → ViewEntry) (s : State) : (mapView d f s).key = s.key := rfl
@[simp] theorem mapView_freeCount (d : Nat) (f : ViewEntry → ViewEntry) (s : State) : (mapView d f s).freeCount = s.freeCount := rfl
@[simp] theorem mapView_pending (d : Nat) (f : ViewEntry → ViewEntry) (s : State) : (mapView d f s).pending = s.pending := rfl

@[simp] theorem putJoin_clock (f : JoinUnit → JoinUnit) (s : State) : (putJoin f s).clock = s.clock := rfl
@[simp] theorem putJoin_powered (f : JoinUnit → JoinUnit) (s : State) : (putJoin f s).powered = s.powered := rfl
@[simp] theorem putJoin_mem (f : JoinUnit → JoinUnit) (s : State) : (putJoin f s).mem = s.mem := rfl
@[simp] theorem putJoin_restartCount (f : JoinUnit → JoinUnit) (s : State) : (putJoin f s).restartCount = s.restartCount := rfl
@[simp] theorem putJoin_digest (f : JoinUnit → JoinUnit) (s : State) : (putJoin f s).digest = s.digest := rfl
@[simp] theorem putJoin_cfg (f : JoinUnit → JoinUnit) (s : State) : (putJoin f s).cfg = s.cfg := rfl
@[simp] theorem putJoin_dps (f : JoinUnit → JoinUnit) (s : State) : (putJoin f s).dps = s.dps := rfl
@[simp] theorem putJoin_sections (f : JoinUnit → JoinUnit) (s : State) : (putJoin f s).sections = s.sections := rfl
@[simp] theorem putJoin_view (f : JoinUnit → JoinUnit) (s : State) : (putJoin f s).view = s.view := rfl
@[simp] theorem putJoin_line (f : JoinUnit → JoinUnit) (s : State) : (putJoin f s).line = s.line := rfl
@[simp] theorem putJoin_peers (f : JoinUnit → JoinUnit) (s : State) : (putJoin f s).peers = s.peers := rfl
@[simp] theorem putJoin_phase (f : JoinUnit → JoinUnit) (s : State) : (putJoin f s).phase = s.phase := rfl
@[simp] theorem putJoin_seq (f : JoinUnit → JoinUnit) (s : State) : (putJoin f s).seq = s.seq := rfl
@[simp] theorem putJoin_lights (f : JoinUnit → JoinUnit) (s : State) : (putJoin f s).lights = s.lights := rfl
@[simp] theorem putJoin_flash (f : JoinUnit → JoinUnit) (s : State) : (putJoin f s).flash = s.flash := rfl
@[simp] theorem putJoin_barrier (f : JoinUnit → JoinUnit) (s : State) : (putJoin f s).barrier = s.barrier := rfl
@[simp] theorem putJoin_dci (f : JoinUnit → JoinUnit) (s : State) : (putJoin f s).dci = s.dci := rfl
@[simp] theorem putJoin_conds (f : JoinUnit → JoinUnit) (s : State) : (putJoin f s).conds = s.conds := rfl
@[simp] theorem putJoin_changes (f : JoinUnit → JoinUnit) (s : State) : (putJoin f s).changes = s.changes := rfl
@[simp] theorem putJoin_notices (f : JoinUnit → JoinUnit) (s : State) : (putJoin f s).notices = s.notices := rfl
@[simp] theorem putJoin_sig (f : JoinUnit → JoinUnit) (s : State) : (putJoin f s).sig = s.sig := rfl
@[simp] theorem putJoin_latches (f : JoinUnit → JoinUnit) (s : State) : (putJoin f s).latches = s.latches := rfl
@[simp] theorem putJoin_firstFault (f : JoinUnit → JoinUnit) (s : State) : (putJoin f s).firstFault = s.firstFault := rfl
@[simp] theorem putJoin_port (f : JoinUnit → JoinUnit) (s : State) : (putJoin f s).port = s.port := rfl
@[simp] theorem putJoin_key (f : JoinUnit → JoinUnit) (s : State) : (putJoin f s).key = s.key := rfl
@[simp] theorem putJoin_freeCount (f : JoinUnit → JoinUnit) (s : State) : (putJoin f s).freeCount = s.freeCount := rfl
@[simp] theorem putJoin_pending (f : JoinUnit → JoinUnit) (s : State) : (putJoin f s).pending = s.pending := rfl

@[simp] theorem putQueue_clock (q : List TxItem) (s : State) : (putQueue q s).clock = s.clock := rfl
@[simp] theorem putQueue_powered (q : List TxItem) (s : State) : (putQueue q s).powered = s.powered := rfl
@[simp] theorem putQueue_mem (q : List TxItem) (s : State) : (putQueue q s).mem = s.mem := rfl
@[simp] theorem putQueue_restartCount (q : List TxItem) (s : State) : (putQueue q s).restartCount = s.restartCount := rfl
@[simp] theorem putQueue_digest (q : List TxItem) (s : State) : (putQueue q s).digest = s.digest := rfl
@[simp] theorem putQueue_cfg (q : List TxItem) (s : State) : (putQueue q s).cfg = s.cfg := rfl
@[simp] theorem putQueue_dps (q : List TxItem) (s : State) : (putQueue q s).dps = s.dps := rfl
@[simp] theorem putQueue_sections (q : List TxItem) (s : State) : (putQueue q s).sections = s.sections := rfl
@[simp] theorem putQueue_view (q : List TxItem) (s : State) : (putQueue q s).view = s.view := rfl
@[simp] theorem putQueue_join (q : List TxItem) (s : State) : (putQueue q s).join = s.join := rfl
@[simp] theorem putQueue_peers (q : List TxItem) (s : State) : (putQueue q s).peers = s.peers := rfl
@[simp] theorem putQueue_phase (q : List TxItem) (s : State) : (putQueue q s).phase = s.phase := rfl
@[simp] theorem putQueue_seq (q : List TxItem) (s : State) : (putQueue q s).seq = s.seq := rfl
@[simp] theorem putQueue_lights (q : List TxItem) (s : State) : (putQueue q s).lights = s.lights := rfl
@[simp] theorem putQueue_flash (q : List TxItem) (s : State) : (putQueue q s).flash = s.flash := rfl
@[simp] theorem putQueue_barrier (q : List TxItem) (s : State) : (putQueue q s).barrier = s.barrier := rfl
@[simp] theorem putQueue_dci (q : List TxItem) (s : State) : (putQueue q s).dci = s.dci := rfl
@[simp] theorem putQueue_conds (q : List TxItem) (s : State) : (putQueue q s).conds = s.conds := rfl
@[simp] theorem putQueue_changes (q : List TxItem) (s : State) : (putQueue q s).changes = s.changes := rfl
@[simp] theorem putQueue_notices (q : List TxItem) (s : State) : (putQueue q s).notices = s.notices := rfl
@[simp] theorem putQueue_sig (q : List TxItem) (s : State) : (putQueue q s).sig = s.sig := rfl
@[simp] theorem putQueue_latches (q : List TxItem) (s : State) : (putQueue q s).latches = s.latches := rfl
@[simp] theorem putQueue_firstFault (q : List TxItem) (s : State) : (putQueue q s).firstFault = s.firstFault := rfl
@[simp] theorem putQueue_port (q : List TxItem) (s : State) : (putQueue q s).port = s.port := rfl
@[simp] theorem putQueue_key (q : List TxItem) (s : State) : (putQueue q s).key = s.key := rfl
@[simp] theorem putQueue_freeCount (q : List TxItem) (s : State) : (putQueue q s).freeCount = s.freeCount := rfl
@[simp] theorem putQueue_pending (q : List TxItem) (s : State) : (putQueue q s).pending = s.pending := rfl

@[simp] theorem endFlight_clock (s : State) : (endFlight s).clock = s.clock := rfl
@[simp] theorem endFlight_powered (s : State) : (endFlight s).powered = s.powered := rfl
@[simp] theorem endFlight_mem (s : State) : (endFlight s).mem = s.mem := rfl
@[simp] theorem endFlight_restartCount (s : State) : (endFlight s).restartCount = s.restartCount := rfl
@[simp] theorem endFlight_digest (s : State) : (endFlight s).digest = s.digest := rfl
@[simp] theorem endFlight_cfg (s : State) : (endFlight s).cfg = s.cfg := rfl
@[simp] theorem endFlight_dps (s : State) : (endFlight s).dps = s.dps := rfl
@[simp] theorem endFlight_sections (s : State) : (endFlight s).sections = s.sections := rfl
@[simp] theorem endFlight_view (s : State) : (endFlight s).view = s.view := rfl
@[simp] theorem endFlight_join (s : State) : (endFlight s).join = s.join := rfl
@[simp] theorem endFlight_peers (s : State) : (endFlight s).peers = s.peers := rfl
@[simp] theorem endFlight_phase (s : State) : (endFlight s).phase = s.phase := rfl
@[simp] theorem endFlight_seq (s : State) : (endFlight s).seq = s.seq := rfl
@[simp] theorem endFlight_lights (s : State) : (endFlight s).lights = s.lights := rfl
@[simp] theorem endFlight_flash (s : State) : (endFlight s).flash = s.flash := rfl
@[simp] theorem endFlight_barrier (s : State) : (endFlight s).barrier = s.barrier := rfl
@[simp] theorem endFlight_dci (s : State) : (endFlight s).dci = s.dci := rfl
@[simp] theorem endFlight_conds (s : State) : (endFlight s).conds = s.conds := rfl
@[simp] theorem endFlight_changes (s : State) : (endFlight s).changes = s.changes := rfl
@[simp] theorem endFlight_notices (s : State) : (endFlight s).notices = s.notices := rfl
@[simp] theorem endFlight_sig (s : State) : (endFlight s).sig = s.sig := rfl
@[simp] theorem endFlight_latches (s : State) : (endFlight s).latches = s.latches := rfl
@[simp] theorem endFlight_firstFault (s : State) : (endFlight s).firstFault = s.firstFault := rfl
@[simp] theorem endFlight_port (s : State) : (endFlight s).port = s.port := rfl
@[simp] theorem endFlight_key (s : State) : (endFlight s).key = s.key := rfl
@[simp] theorem endFlight_freeCount (s : State) : (endFlight s).freeCount = s.freeCount := rfl
@[simp] theorem endFlight_pending (s : State) : (endFlight s).pending = s.pending := rfl

@[simp] theorem dropAccepted_clock (s : State) : (dropAccepted s).clock = s.clock := rfl
@[simp] theorem dropAccepted_powered (s : State) : (dropAccepted s).powered = s.powered := rfl
@[simp] theorem dropAccepted_mem (s : State) : (dropAccepted s).mem = s.mem := rfl
@[simp] theorem dropAccepted_restartCount (s : State) : (dropAccepted s).restartCount = s.restartCount := rfl
@[simp] theorem dropAccepted_digest (s : State) : (dropAccepted s).digest = s.digest := rfl
@[simp] theorem dropAccepted_cfg (s : State) : (dropAccepted s).cfg = s.cfg := rfl
@[simp] theorem dropAccepted_dps (s : State) : (dropAccepted s).dps = s.dps := rfl
@[simp] theorem dropAccepted_sections (s : State) : (dropAccepted s).sections = s.sections := rfl
@[simp] theorem dropAccepted_view (s : State) : (dropAccepted s).view = s.view := rfl
@[simp] theorem dropAccepted_join (s : State) : (dropAccepted s).join = s.join := rfl
@[simp] theorem dropAccepted_peers (s : State) : (dropAccepted s).peers = s.peers := rfl
@[simp] theorem dropAccepted_phase (s : State) : (dropAccepted s).phase = s.phase := rfl
@[simp] theorem dropAccepted_seq (s : State) : (dropAccepted s).seq = s.seq := rfl
@[simp] theorem dropAccepted_lights (s : State) : (dropAccepted s).lights = s.lights := rfl
@[simp] theorem dropAccepted_flash (s : State) : (dropAccepted s).flash = s.flash := rfl
@[simp] theorem dropAccepted_barrier (s : State) : (dropAccepted s).barrier = s.barrier := rfl
@[simp] theorem dropAccepted_dci (s : State) : (dropAccepted s).dci = s.dci := rfl
@[simp] theorem dropAccepted_conds (s : State) : (dropAccepted s).conds = s.conds := rfl
@[simp] theorem dropAccepted_changes (s : State) : (dropAccepted s).changes = s.changes := rfl
@[simp] theorem dropAccepted_notices (s : State) : (dropAccepted s).notices = s.notices := rfl
@[simp] theorem dropAccepted_sig (s : State) : (dropAccepted s).sig = s.sig := rfl
@[simp] theorem dropAccepted_latches (s : State) : (dropAccepted s).latches = s.latches := rfl
@[simp] theorem dropAccepted_firstFault (s : State) : (dropAccepted s).firstFault = s.firstFault := rfl
@[simp] theorem dropAccepted_port (s : State) : (dropAccepted s).port = s.port := rfl
@[simp] theorem dropAccepted_key (s : State) : (dropAccepted s).key = s.key := rfl
@[simp] theorem dropAccepted_freeCount (s : State) : (dropAccepted s).freeCount = s.freeCount := rfl
@[simp] theorem dropAccepted_pending (s : State) : (dropAccepted s).pending = s.pending := rfl

@[simp] theorem putSig_clock (u : SigUnit) (s : State) : (putSig u s).clock = s.clock := rfl
@[simp] theorem putSig_powered (u : SigUnit) (s : State) : (putSig u s).powered = s.powered := rfl
@[simp] theorem putSig_mem (u : SigUnit) (s : State) : (putSig u s).mem = s.mem := rfl
@[simp] theorem putSig_restartCount (u : SigUnit) (s : State) : (putSig u s).restartCount = s.restartCount := rfl
@[simp] theorem putSig_digest (u : SigUnit) (s : State) : (putSig u s).digest = s.digest := rfl
@[simp] theorem putSig_cfg (u : SigUnit) (s : State) : (putSig u s).cfg = s.cfg := rfl
@[simp] theorem putSig_dps (u : SigUnit) (s : State) : (putSig u s).dps = s.dps := rfl
@[simp] theorem putSig_sections (u : SigUnit) (s : State) : (putSig u s).sections = s.sections := rfl
@[simp] theorem putSig_view (u : SigUnit) (s : State) : (putSig u s).view = s.view := rfl
@[simp] theorem putSig_line (u : SigUnit) (s : State) : (putSig u s).line = s.line := rfl
@[simp] theorem putSig_join (u : SigUnit) (s : State) : (putSig u s).join = s.join := rfl
@[simp] theorem putSig_peers (u : SigUnit) (s : State) : (putSig u s).peers = s.peers := rfl
@[simp] theorem putSig_phase (u : SigUnit) (s : State) : (putSig u s).phase = s.phase := rfl
@[simp] theorem putSig_seq (u : SigUnit) (s : State) : (putSig u s).seq = s.seq := rfl
@[simp] theorem putSig_lights (u : SigUnit) (s : State) : (putSig u s).lights = s.lights := rfl
@[simp] theorem putSig_flash (u : SigUnit) (s : State) : (putSig u s).flash = s.flash := rfl
@[simp] theorem putSig_barrier (u : SigUnit) (s : State) : (putSig u s).barrier = s.barrier := rfl
@[simp] theorem putSig_dci (u : SigUnit) (s : State) : (putSig u s).dci = s.dci := rfl
@[simp] theorem putSig_conds (u : SigUnit) (s : State) : (putSig u s).conds = s.conds := rfl
@[simp] theorem putSig_changes (u : SigUnit) (s : State) : (putSig u s).changes = s.changes := rfl
@[simp] theorem putSig_notices (u : SigUnit) (s : State) : (putSig u s).notices = s.notices := rfl
@[simp] theorem putSig_latches (u : SigUnit) (s : State) : (putSig u s).latches = s.latches := rfl
@[simp] theorem putSig_firstFault (u : SigUnit) (s : State) : (putSig u s).firstFault = s.firstFault := rfl
@[simp] theorem putSig_port (u : SigUnit) (s : State) : (putSig u s).port = s.port := rfl
@[simp] theorem putSig_key (u : SigUnit) (s : State) : (putSig u s).key = s.key := rfl
@[simp] theorem putSig_freeCount (u : SigUnit) (s : State) : (putSig u s).freeCount = s.freeCount := rfl
@[simp] theorem putSig_pending (u : SigUnit) (s : State) : (putSig u s).pending = s.pending := rfl

@[simp] theorem putPort_clock (c : PortCmd) (r : Option Reply) (s : State) : (putPort c r s).clock = s.clock := rfl
@[simp] theorem putPort_powered (c : PortCmd) (r : Option Reply) (s : State) : (putPort c r s).powered = s.powered := rfl
@[simp] theorem putPort_mem (c : PortCmd) (r : Option Reply) (s : State) : (putPort c r s).mem = s.mem := rfl
@[simp] theorem putPort_restartCount (c : PortCmd) (r : Option Reply) (s : State) : (putPort c r s).restartCount = s.restartCount := rfl
@[simp] theorem putPort_digest (c : PortCmd) (r : Option Reply) (s : State) : (putPort c r s).digest = s.digest := rfl
@[simp] theorem putPort_cfg (c : PortCmd) (r : Option Reply) (s : State) : (putPort c r s).cfg = s.cfg := rfl
@[simp] theorem putPort_dps (c : PortCmd) (r : Option Reply) (s : State) : (putPort c r s).dps = s.dps := rfl
@[simp] theorem putPort_sections (c : PortCmd) (r : Option Reply) (s : State) : (putPort c r s).sections = s.sections := rfl
@[simp] theorem putPort_view (c : PortCmd) (r : Option Reply) (s : State) : (putPort c r s).view = s.view := rfl
@[simp] theorem putPort_line (c : PortCmd) (r : Option Reply) (s : State) : (putPort c r s).line = s.line := rfl
@[simp] theorem putPort_join (c : PortCmd) (r : Option Reply) (s : State) : (putPort c r s).join = s.join := rfl
@[simp] theorem putPort_peers (c : PortCmd) (r : Option Reply) (s : State) : (putPort c r s).peers = s.peers := rfl
@[simp] theorem putPort_phase (c : PortCmd) (r : Option Reply) (s : State) : (putPort c r s).phase = s.phase := rfl
@[simp] theorem putPort_seq (c : PortCmd) (r : Option Reply) (s : State) : (putPort c r s).seq = s.seq := rfl
@[simp] theorem putPort_lights (c : PortCmd) (r : Option Reply) (s : State) : (putPort c r s).lights = s.lights := rfl
@[simp] theorem putPort_flash (c : PortCmd) (r : Option Reply) (s : State) : (putPort c r s).flash = s.flash := rfl
@[simp] theorem putPort_barrier (c : PortCmd) (r : Option Reply) (s : State) : (putPort c r s).barrier = s.barrier := rfl
@[simp] theorem putPort_dci (c : PortCmd) (r : Option Reply) (s : State) : (putPort c r s).dci = s.dci := rfl
@[simp] theorem putPort_conds (c : PortCmd) (r : Option Reply) (s : State) : (putPort c r s).conds = s.conds := rfl
@[simp] theorem putPort_changes (c : PortCmd) (r : Option Reply) (s : State) : (putPort c r s).changes = s.changes := rfl
@[simp] theorem putPort_notices (c : PortCmd) (r : Option Reply) (s : State) : (putPort c r s).notices = s.notices := rfl
@[simp] theorem putPort_sig (c : PortCmd) (r : Option Reply) (s : State) : (putPort c r s).sig = s.sig := rfl
@[simp] theorem putPort_latches (c : PortCmd) (r : Option Reply) (s : State) : (putPort c r s).latches = s.latches := rfl
@[simp] theorem putPort_firstFault (c : PortCmd) (r : Option Reply) (s : State) : (putPort c r s).firstFault = s.firstFault := rfl
@[simp] theorem putPort_key (c : PortCmd) (r : Option Reply) (s : State) : (putPort c r s).key = s.key := rfl
@[simp] theorem putPort_freeCount (c : PortCmd) (r : Option Reply) (s : State) : (putPort c r s).freeCount = s.freeCount := rfl
@[simp] theorem putPort_pending (c : PortCmd) (r : Option Reply) (s : State) : (putPort c r s).pending = s.pending := rfl

@[simp] theorem putReply_clock (r : Reply) (s : State) : (putReply r s).clock = s.clock := rfl
@[simp] theorem putReply_powered (r : Reply) (s : State) : (putReply r s).powered = s.powered := rfl
@[simp] theorem putReply_mem (r : Reply) (s : State) : (putReply r s).mem = s.mem := rfl
@[simp] theorem putReply_restartCount (r : Reply) (s : State) : (putReply r s).restartCount = s.restartCount := rfl
@[simp] theorem putReply_digest (r : Reply) (s : State) : (putReply r s).digest = s.digest := rfl
@[simp] theorem putReply_cfg (r : Reply) (s : State) : (putReply r s).cfg = s.cfg := rfl
@[simp] theorem putReply_dps (r : Reply) (s : State) : (putReply r s).dps = s.dps := rfl
@[simp] theorem putReply_sections (r : Reply) (s : State) : (putReply r s).sections = s.sections := rfl
@[simp] theorem putReply_view (r : Reply) (s : State) : (putReply r s).view = s.view := rfl
@[simp] theorem putReply_line (r : Reply) (s : State) : (putReply r s).line = s.line := rfl
@[simp] theorem putReply_join (r : Reply) (s : State) : (putReply r s).join = s.join := rfl
@[simp] theorem putReply_peers (r : Reply) (s : State) : (putReply r s).peers = s.peers := rfl
@[simp] theorem putReply_phase (r : Reply) (s : State) : (putReply r s).phase = s.phase := rfl
@[simp] theorem putReply_seq (r : Reply) (s : State) : (putReply r s).seq = s.seq := rfl
@[simp] theorem putReply_lights (r : Reply) (s : State) : (putReply r s).lights = s.lights := rfl
@[simp] theorem putReply_flash (r : Reply) (s : State) : (putReply r s).flash = s.flash := rfl
@[simp] theorem putReply_barrier (r : Reply) (s : State) : (putReply r s).barrier = s.barrier := rfl
@[simp] theorem putReply_dci (r : Reply) (s : State) : (putReply r s).dci = s.dci := rfl
@[simp] theorem putReply_conds (r : Reply) (s : State) : (putReply r s).conds = s.conds := rfl
@[simp] theorem putReply_changes (r : Reply) (s : State) : (putReply r s).changes = s.changes := rfl
@[simp] theorem putReply_notices (r : Reply) (s : State) : (putReply r s).notices = s.notices := rfl
@[simp] theorem putReply_sig (r : Reply) (s : State) : (putReply r s).sig = s.sig := rfl
@[simp] theorem putReply_latches (r : Reply) (s : State) : (putReply r s).latches = s.latches := rfl
@[simp] theorem putReply_firstFault (r : Reply) (s : State) : (putReply r s).firstFault = s.firstFault := rfl
@[simp] theorem putReply_key (r : Reply) (s : State) : (putReply r s).key = s.key := rfl
@[simp] theorem putReply_freeCount (r : Reply) (s : State) : (putReply r s).freeCount = s.freeCount := rfl
@[simp] theorem putReply_pending (r : Reply) (s : State) : (putReply r s).pending = s.pending := rfl

@[simp] theorem defer_clock (l : Option ListName) (s : State) : (defer l s).clock = s.clock := rfl
@[simp] theorem defer_powered (l : Option ListName) (s : State) : (defer l s).powered = s.powered := rfl
@[simp] theorem defer_mem (l : Option ListName) (s : State) : (defer l s).mem = s.mem := rfl
@[simp] theorem defer_restartCount (l : Option ListName) (s : State) : (defer l s).restartCount = s.restartCount := rfl
@[simp] theorem defer_digest (l : Option ListName) (s : State) : (defer l s).digest = s.digest := rfl
@[simp] theorem defer_cfg (l : Option ListName) (s : State) : (defer l s).cfg = s.cfg := rfl
@[simp] theorem defer_dps (l : Option ListName) (s : State) : (defer l s).dps = s.dps := rfl
@[simp] theorem defer_sections (l : Option ListName) (s : State) : (defer l s).sections = s.sections := rfl
@[simp] theorem defer_view (l : Option ListName) (s : State) : (defer l s).view = s.view := rfl
@[simp] theorem defer_line (l : Option ListName) (s : State) : (defer l s).line = s.line := rfl
@[simp] theorem defer_join (l : Option ListName) (s : State) : (defer l s).join = s.join := rfl
@[simp] theorem defer_peers (l : Option ListName) (s : State) : (defer l s).peers = s.peers := rfl
@[simp] theorem defer_seq (l : Option ListName) (s : State) : (defer l s).seq = s.seq := rfl
@[simp] theorem defer_lights (l : Option ListName) (s : State) : (defer l s).lights = s.lights := rfl
@[simp] theorem defer_flash (l : Option ListName) (s : State) : (defer l s).flash = s.flash := rfl
@[simp] theorem defer_barrier (l : Option ListName) (s : State) : (defer l s).barrier = s.barrier := rfl
@[simp] theorem defer_dci (l : Option ListName) (s : State) : (defer l s).dci = s.dci := rfl
@[simp] theorem defer_conds (l : Option ListName) (s : State) : (defer l s).conds = s.conds := rfl
@[simp] theorem defer_changes (l : Option ListName) (s : State) : (defer l s).changes = s.changes := rfl
@[simp] theorem defer_notices (l : Option ListName) (s : State) : (defer l s).notices = s.notices := rfl
@[simp] theorem defer_sig (l : Option ListName) (s : State) : (defer l s).sig = s.sig := rfl
@[simp] theorem defer_latches (l : Option ListName) (s : State) : (defer l s).latches = s.latches := rfl
@[simp] theorem defer_firstFault (l : Option ListName) (s : State) : (defer l s).firstFault = s.firstFault := rfl
@[simp] theorem defer_port (l : Option ListName) (s : State) : (defer l s).port = s.port := rfl
@[simp] theorem defer_key (l : Option ListName) (s : State) : (defer l s).key = s.key := rfl
@[simp] theorem defer_freeCount (l : Option ListName) (s : State) : (defer l s).freeCount = s.freeCount := rfl
@[simp] theorem defer_pending (l : Option ListName) (s : State) : (defer l s).pending = s.pending := rfl

@[simp] theorem advance_clock (dt : Nat) (s : State) : (advance dt s).clock = s.clock.advance dt := rfl
@[simp] theorem setLatch_latches (l : Latch) (s : State) : (setLatch l s).latches = s.latches.set l := rfl
@[simp] theorem mapPeer_peers (n : Nat) (f : Peer → Peer) (s : State) :
    (mapPeer n f s).peers = s.peers.map fun p => if p.station = n then f p else p := rfl
@[simp] theorem putJoin_join (f : JoinUnit → JoinUnit) (s : State) : (putJoin f s).join = f s.join := rfl
@[simp] theorem putSig_sig (u : SigUnit) (s : State) : (putSig u s).sig = u := rfl
@[simp] theorem putPort_port (c : PortCmd) (r : Option Reply) (s : State) :
    (putPort c r s).port = { s.port with cmd := some c, reply := r, rx := [] } := rfl
@[simp] theorem putQueue_queue (q : List TxItem) (s : State) : (putQueue q s).line.queue = q := rfl
@[simp] theorem endFlight_flight (s : State) : (endFlight s).line.flight = none := rfl

end Sys2Proof.Machine
end

