-- ==== Sys2Proof/Laws/Frames.lean ====
section
/-! SUPPORT. What each shared operation leaves alone: one frame lemma for each, over the parts of the state. -/

namespace Sys2Proof.Machine

/-! ### Frames in general -/

theorem KeptBut.refl (l : List Part) (s : State) : KeptBut l s s := by
  intro p _
  cases p <;> first | rfl | exact ⟨rfl, rfl⟩

theorem KeptBut.trans {l : List Part} {s t u : State} (h1 : KeptBut l s t) (h2 : KeptBut l t u) : KeptBut l s u := by
  intro p hp
  have a := h1 p hp
  have b := h2 p hp
  cases p <;> first | exact Eq.trans b a | exact ⟨b.1.trans a.1, b.2.trans a.2⟩

theorem KeptBut.mono {l m : List Part} {s t : State} (hlm : l ⊆ m) (h : KeptBut l s t) : KeptBut m s t :=
  fun p hp => h p fun hq => hp (hlm hq)

theorem KeptBut.ite {l : List Part} {s t u : State} {c : Prop} [Decidable c] (h1 : c → KeptBut l s t) (h2 : ¬c → KeptBut l s u) :
    KeptBut l s (if c then t else u) := by
  split
  · exact h1 ‹_›
  · exact h2 ‹_›

/-- A fold of operations that each keep the same parts keeps them. -/
theorem KeptBut.foldl {α : Type} {l : List Part} (f : State → α → State) (hf : ∀ s x, KeptBut l s (f s x)) (xs : List α) (s : State) :
    KeptBut l s (xs.foldl f s) := by
  induction xs generalizing s with
  | nil => exact KeptBut.refl l s
  | cons x rest ih => exact (hf s x).trans (ih (f s x))

/-- One piece of work after another keeps what both keep. -/
theorem KeptBut.andThen {l : List Part} {s : State} {w : Work} {f : State → Work} (h1 : KeptBut l s w.1) (h2 : ∀ t, KeptBut l t (f t).1) :
    KeptBut l s (w.andThen f).1 := h1.trans (h2 w.1)

/-! ### Plain record updates -/

theorem advance_kept (dt : Nat) (s : State) : KeptBut [.clock, .peers] s (advance dt s) := by
  intro p hp; cases p <;> first | rfl | exact ⟨rfl, rfl⟩ | exact absurd (by decide) hp

theorem setLatch_kept (l : Latch) (s : State) : KeptBut [.latches] s (setLatch l s) := by
  intro p hp; cases p <;> first | rfl | exact ⟨rfl, rfl⟩ | exact absurd (by decide) hp

theorem putDp_kept (u : DpUnit) (s : State) : KeptBut [.dps] s (putDp u s) := by
  intro p hp; cases p <;> first | rfl | exact ⟨rfl, rfl⟩ | exact absurd (by decide) hp

theorem putPeer_kept (q : Peer) (s : State) : KeptBut [.peers] s (putPeer q s) := by
  intro p hp; cases p <;> first | rfl | exact ⟨rfl, rfl⟩ | exact absurd (by decide) hp

theorem mapPeer_kept (n : Nat) (f : Peer → Peer) (s : State) : KeptBut [.peers] s (mapPeer n f s) := by
  intro p hp; cases p <;> first | rfl | exact ⟨rfl, rfl⟩ | exact absurd (by decide) hp

theorem mapView_kept (d : Nat) (f : ViewEntry → ViewEntry) (s : State) : KeptBut [.view] s (mapView d f s) := by
  intro p hp; cases p <;> first | rfl | exact ⟨rfl, rfl⟩ | exact absurd (by decide) hp

theorem putJoin_kept (f : JoinUnit → JoinUnit) (s : State) : KeptBut [.join] s (putJoin f s) := by
  intro p hp; cases p <;> first | rfl | exact ⟨rfl, rfl⟩ | exact absurd (by decide) hp

theorem putQueue_kept (q : List TxItem) (s : State) : KeptBut [.line] s (putQueue q s) := by
  intro p hp; cases p <;> first | rfl | exact ⟨rfl, rfl⟩ | exact absurd (by decide) hp

theorem enqueue_kept (w : TxWhat) (s : State) : KeptBut [.line] s (enqueue w s) := by
  intro p hp; cases p <;> first | rfl | exact ⟨rfl, rfl⟩ | exact absurd (by decide) hp

theorem endFlight_kept (s : State) : KeptBut [.line] s (endFlight s) := by
  intro p hp; cases p <;> first | rfl | exact ⟨rfl, rfl⟩ | exact absurd (by decide) hp

theorem dropAccepted_kept (s : State) : KeptBut [.line] s (dropAccepted s) := by
  intro p hp; cases p <;> first | rfl | exact ⟨rfl, rfl⟩ | exact absurd (by decide) hp

theorem putSig_kept (u : SigUnit) (s : State) : KeptBut [.sig] s (putSig u s) := by
  intro p hp; cases p <;> first | rfl | exact ⟨rfl, rfl⟩ | exact absurd (by decide) hp

theorem putPort_kept (c : PortCmd) (r : Option Reply) (s : State) : KeptBut [.port] s (putPort c r s) := by
  intro p hp; cases p <;> first | rfl | exact ⟨rfl, rfl⟩ | exact absurd (by decide) hp

theorem putReply_kept (r : Reply) (s : State) : KeptBut [.port] s (putReply r s) := by
  intro p hp; cases p <;> first | rfl | exact ⟨rfl, rfl⟩ | exact absurd (by decide) hp

theorem busyPort_kept (s : State) : KeptBut [.port] s (busyPort s) := by
  intro p hp; cases p <;> first | rfl | exact ⟨rfl, rfl⟩ | exact absurd (by decide) hp

theorem defer_kept (l : Option ListName) (s : State) : KeptBut [.phase] s (defer l s) := by
  intro p hp; cases p <;> first | rfl | exact ⟨rfl, rfl⟩ | exact absurd (by decide) hp

theorem halfBoundary_kept (b : Bool) (s : State) : KeptBut [.lights, .dci] s (halfBoundary b s) := by
  intro p hp; cases p <;> first | rfl | exact ⟨rfl, rfl⟩ | exact absurd (by decide) hp

theorem judgeDcis_kept (s : State) : KeptBut [.dci] s (judgeDcis s) := by
  intro p hp; cases p <;> first | rfl | exact ⟨rfl, rfl⟩ | exact absurd (by decide) hp

theorem mapLine_kept (f : LineRec → LineRec) (l : Line) (s : State) : KeptBut [.line] s (mapLine f l s) := by
  intro p hp; cases l <;> cases p <;> first | rfl | exact ⟨rfl, rfl⟩ | exact absurd (by decide) hp

/-- A change of the line controller alone. -/
theorem putLine_kept (u : LineUnit) (s : State) : KeptBut [.line] s { s with line := u } := by
  intro p hp; cases p <;> first | rfl | exact ⟨rfl, rfl⟩ | exact absurd (by decide) hp

theorem acceptFrame_kept (l : Line) (f : Frame) (s : State) : KeptBut [.line] s (acceptFrame l f s) := putLine_kept _ s

theorem keepRx_kept (l : List RxByte) (s : State) : KeptBut [.sig] s (keepRx l s) := putSig_kept _ s

/-- A change of the road lights alone. -/
theorem putLights_kept (u : LightsUnit) (s : State) : KeptBut [.lights] s { s with lights := u } := by
  intro p hp; cases p <;> first | rfl | exact ⟨rfl, rfl⟩ | exact absurd (by decide) hp

/-- A change of the indicators alone. -/
theorem putDci_kept (u : DciUnit) (s : State) : KeptBut [.dci] s { s with dci := u } := by
  intro p hp; cases p <;> first | rfl | exact ⟨rfl, rfl⟩ | exact absurd (by decide) hp

/-! ### Conditions and notices (chapter 10) -/

theorem noticeSync_kept (s : State) : KeptBut [.notices] s (noticeSync s) := by
  unfold noticeSync
  split
  · intro p hp; cases p <;> first | rfl | exact ⟨rfl, rfl⟩ | exact absurd (by decide) hp
  · exact KeptBut.refl _ s

theorem countChange_kept (b : Bool) (s : State) : KeptBut [.conds] s (countChange b s) := by
  unfold countChange
  split
  · intro p hp; cases p <;> first | rfl | exact ⟨rfl, rfl⟩ | exact absurd (by decide) hp
  · exact KeptBut.refl _ s

/-- A change of the condition set with the notice list's change after it. -/
theorem putConds_kept (l : List CondEntry) (s : State) : KeptBut [.conds, .notices] s (putConds l s) := by
  have h : KeptBut [.conds, .notices] s { s with conds := l } := by
    intro p hp; cases p <;> first | rfl | exact ⟨rfl, rfl⟩ | exact absurd (by decide) hp
  exact (h.trans ((countChange_kept _ _).mono (by decide))).trans ((noticeSync_kept _).mono (by decide))

theorem countChange_conds (b : Bool) (s : State) : (countChange b s).conds = s.conds := by
  unfold countChange
  split <;> rfl

theorem noticeSync_conds (s : State) : (noticeSync s).conds = s.conds := (noticeSync_kept s .conds (by decide)).1

/-- The condition set after its contents have been replaced is the one given. -/
@[simp] theorem putConds_conds (l : List CondEntry) (s : State) : (putConds l s).conds = l := by
  unfold putConds
  rw [noticeSync_conds, countChange_conds]

theorem raiseCond_kept (c : CondId) (s : State) : KeptBut [.conds, .notices] s (raiseCond c s) := by
  unfold raiseCond
  split
  · split
    · intro p hp; cases p <;> first | rfl | exact ⟨rfl, rfl⟩ | exact absurd (by decide) hp
    · exact KeptBut.refl _ s
  · split
    · exact putConds_kept _ s
    · split
      · exact KeptBut.refl _ s
      · split
        · exact putConds_kept _ s
        · exact KeptBut.refl _ s

theorem clearCond_kept (c : CondId) (s : State) : KeptBut [.conds, .notices] s (clearCond c s) := by
  unfold clearCond
  split
  · exact putConds_kept _ s
  · exact KeptBut.refl _ s

theorem setCond_kept (on : Bool) (c : CondId) (s : State) : KeptBut [.conds, .notices] s (setCond on c s) := by
  unfold setCond
  split
  · exact raiseCond_kept c s
  · exact clearCond_kept c s

/-! ### The section table (chapter 03) -/

theorem sectConds_kept (x y : SectState) (id : Nat) (s : State) : KeptBut [.conds, .notices] s (sectConds x y id s) := by
  unfold sectConds
  split
  · exact KeptBut.refl _ s
  · extract_lets s1 s2 s3
    have h1 : KeptBut [.conds, .notices] s s1 := KeptBut.ite (fun _ => clearCond_kept _ _) (fun _ => KeptBut.refl _ _)
    have h2 : KeptBut [.conds, .notices] s1 s2 := KeptBut.ite (fun _ => clearCond_kept _ _) (fun _ => KeptBut.refl _ _)
    have h3 : KeptBut [.conds, .notices] s2 s3 := KeptBut.ite (fun _ => raiseCond_kept _ _) (fun _ => KeptBut.refl _ _)
    exact ((h1.trans h2).trans h3).trans (KeptBut.ite (fun _ => raiseCond_kept _ _) (fun _ => KeptBut.refl _ _))

theorem islandCleared_kept (x y : Sect) (s : State) : KeptBut [.conds, .notices] s (islandCleared x y s) := by
  unfold islandCleared
  exact KeptBut.ite (fun _ => (clearCond_kept _ _).trans (clearCond_kept _ _)) (fun _ => KeptBut.refl _ _)

theorem heldCleared_kept (x y : Sect) (s : State) : KeptBut [.conds, .notices, .phase] s (heldCleared x y s) := by
  unfold heldCleared
  refine KeptBut.ite (fun _ => KeptBut.trans ?_ ((clearCond_kept _ _).mono (by decide))) (fun _ => KeptBut.refl _ _)
  intro p hp; cases p <;> first | rfl | exact ⟨rfl, rfl⟩ | exact absurd (by decide) hp

/-- A section record's change reaches the table, the conditions that follow it and the set of the sections held by release, and nothing else. -/
theorem putSect_kept (r : Sect) (s : State) : KeptBut [.sections, .conds, .notices, .phase] s (putSect r s) := by
  unfold putSect
  split
  · exact KeptBut.refl _ s
  · rename_i before _
    refine KeptBut.trans ?_ ((heldCleared_kept _ _ _).mono (by decide))
    refine KeptBut.trans ?_ ((islandCleared_kept _ _ _).mono (by decide))
    refine KeptBut.trans ?_ ((sectConds_kept _ _ _ _).mono (by decide))
    intro p hp; cases p <;> first | rfl | exact ⟨rfl, rfl⟩ | exact absurd (by decide) hp

/-- In declared lockout a record that is UNKNOWN or RESTORING stays so (R190). -/
theorem Sect.stay_state {before : Sect} (h : before.state = .unknown ∨ before.state = .restoring) (after : Sect) :
    (before.stay after).state = before.state := by
  unfold Sect.stay
  split
  · assumption
  · rcases h with h | h <;> rw [h]

/-- What stays of a record is its change, or the record with the change's baselines and, of a RESTORING one, its balance (R42, R94, R190). -/
theorem Sect.stay_cases (before after : Sect) :
    before.stay after = after
      ∨ (before.state = .unknown ∧ before.stay after = { before with baseOuter := after.baseOuter, baseInner := after.baseInner })
      ∨ (before.state = .restoring
          ∧ before.stay after = { before with balance := after.balance, baseOuter := after.baseOuter, baseInner := after.baseInner }) := by
  unfold Sect.stay
  split
  · exact .inl rfl
  · cases h : before.state <;> simp

theorem mapSect_kept (id : Nat) (f : Sect → Sect) (s : State) : KeptBut [.sections, .conds, .notices, .phase] s (mapSect id f s) := by
  unfold mapSect
  split
  · exact KeptBut.refl _ s
  · exact putSect_kept _ s

theorem mapSects_kept (ids : List Nat) (f : Sect → Sect) (s : State) : KeptBut [.sections, .conds, .notices, .phase] s (mapSects ids f s) :=
  KeptBut.foldl _ (fun s id => mapSect_kept id f s) ids s

theorem dpFaultsSections_kept (d : Nat) (s : State) : KeptBut [.sections, .conds, .notices, .phase] s (dpFaultsSections d s) := mapSects_kept _ _ s

theorem loseOwner_kept (n : Nat) (s : State) : KeptBut [.view, .sections, .conds, .notices, .phase] s (loseOwner n s) := by
  unfold loseOwner
  refine KeptBut.trans ?_ ((mapSects_kept _ _ _).mono (by decide))
  intro p hp; cases p <;> first | rfl | exact ⟨rfl, rfl⟩ | exact absurd (by decide) hp

theorem peerCounts_kept (reps : List DpCounts) (ret : Option Nat) (cand : Option (Nat × Time)) (s : State) :
    KeptBut [.sections, .conds, .notices, .phase] s (peerCounts reps ret cand s) :=
  KeptBut.foldl _ (fun _ _ => mapSect_kept _ _ _) _ s

theorem applyReset_kept (k : ResetKind) (id : Nat) (s : State) : KeptBut [.sections, .conds, .notices, .phase] s (applyReset k id s) :=
  mapSect_kept _ _ s

/-! ### Lights and barrier (chapter 08) -/

theorem aspectConds_kept (x y : AspectState) (a : Aspect) (s : State) : KeptBut [.conds, .notices] s (aspectConds x y a s) := by
  unfold aspectConds
  split
  · exact KeptBut.refl _ s
  · extract_lets s1
    have h1 : KeptBut [.conds, .notices] s s1 := by
      cases x
      · exact KeptBut.refl _ _
      · exact clearCond_kept _ _
      · exact clearCond_kept _ _
    refine h1.trans ?_
    cases y
    · exact KeptBut.refl _ _
    · exact raiseCond_kept _ _
    · exact raiseCond_kept _ _

theorem aspectResults_kept (a : Aspect) (lim : Limits) (x y : Nat) (s : State) :
    KeptBut [.lights, .conds, .notices] s (aspectResults a lim x y s) := by
  unfold aspectResults
  refine KeptBut.trans ?_ ((aspectConds_kept _ _ _ _).mono (by decide))
  intro p hp; cases p <;> first | rfl | exact ⟨rfl, rfl⟩ | exact absurd (by decide) hp

/-- A test pulse's results touch the lights and the conditions that follow them, as other results do. -/
theorem aspectTest_kept (a : Aspect) (lim : Limits) (x y : Nat) (s : State) : KeptBut [.lights, .conds, .notices] s (aspectTest a lim x y s) :=
  ((putLights_kept _ s).mono (by decide)).trans (aspectResults_kept _ _ _ _ _)

theorem discardResult_kept (a : Aspect) (s : State) : KeptBut [.lights, .conds, .notices] s (discardResult a s) :=
  ((putLights_kept _ s).mono (by decide)).trans ((aspectConds_kept _ _ _ _).mono (by decide))

theorem discardResults_kept (s : State) : KeptBut [.lights, .conds, .notices] s (discardResults s) := by
  unfold discardResults
  split
  · exact KeptBut.refl _ s
  · refine KeptBut.foldl _ (fun t a => ?_) _ s
    exact KeptBut.ite (fun _ => discardResult_kept a t) (fun _ => KeptBut.refl _ t)

/-- A pattern handed over touches the lights and, where it discards a result, the conditions that followed it. -/
theorem applyPattern_kept (a : Bool) (r : RedField) (s : State) : KeptBut [.lights, .conds, .notices] s (applyPattern a r s) :=
  (((putLights_kept _ s).mono (by decide)).trans (discardResults_kept _)).trans ((putLights_kept _ _).mono (by decide))

theorem dciResult_kept (out : Fin 2) (good : Bool) (s : State) : KeptBut [.dci, .conds, .notices] s (dciResult out good s) := by
  unfold dciResult
  split
  · exact KeptBut.refl _ s
  · rename_i o _
    have h1 : KeptBut [.dci, .conds, .notices] s
        { s with dci := s.dci.mapOut (fun x => { x with lamp := o.lamp.result good }) out } := (putDci_kept _ s).mono (by decide)
    exact KeptBut.ite (fun _ => h1) (fun _ => h1.trans ((setCond_kept _ _ _).mono (by decide)))

theorem countDcis_kept (s : State) : KeptBut [.dci, .conds, .notices] s (countDcis s) := by
  unfold countDcis
  split
  · exact KeptBut.refl _ s
  · extract_lets s1
    have h1 : KeptBut [.dci, .conds, .notices] s s1 := KeptBut.ite (fun _ => dciResult_kept _ _ s) (fun _ => KeptBut.refl _ s)
    exact h1.trans (KeptBut.ite (fun _ => dciResult_kept _ _ _) (fun _ => KeptBut.refl _ _))

theorem endPulse_kept (u : PulseUnit) (s : State) : KeptBut (match u with
    | .lamps => [.lights]
    | .dcis => [.dci, .conds, .notices]) s (endPulse u s) := by
  cases u
  · exact putLights_kept _ s
  · exact (countDcis_kept s).trans ((putDci_kept _ (countDcis s)).mono (by decide))

theorem barrierSettle_kept (s : State) : KeptBut [.barrier, .conds, .notices] s (barrierSettle s).1 := by
  have h (b : BarrierUnit) : KeptBut [.barrier, .conds, .notices] s { s with barrier := b } := by
    intro p hp; cases p <;> first | rfl | exact ⟨rfl, rfl⟩ | exact absurd (by decide) hp
  unfold barrierSettle
  split
  · extract_lets b st s1
    have h1 : KeptBut [.barrier, .conds, .notices] s s1 := h _
    split
    · exact h1
    · exact h1.trans (KeptBut.ite (fun _ => (clearCond_kept _ _).mono (by decide)) (fun _ => KeptBut.refl _ _))
  · exact KeptBut.refl _ s

theorem handCommand_kept (c : BarrierCmd) (s : State) : KeptBut [.barrier, .conds, .notices] s (handCommand c s).1 := by
  refine KeptBut.andThen (KeptBut.trans ?_ (barrierSettle_kept _)) fun t => (countChange_kept _ t).mono (by decide)
  intro p hp; cases p <;> first | rfl | exact ⟨rfl, rfl⟩ | exact absurd (by decide) hp

theorem contactSet_kept (first : Bool) (b : BarrierUnit) (s : State) : KeptBut [.barrier, .conds, .notices] s (contactSet first b s).1 := by
  have h (b : BarrierUnit) : KeptBut [.barrier, .conds, .notices] s { s with barrier := b } := by
    intro p hp; cases p <;> first | rfl | exact ⟨rfl, rfl⟩ | exact absurd (by decide) hp
  unfold contactSet
  extract_lets b0 b1
  split
  · exact ((h _).trans ((clearCond_kept _ _).mono (by decide))).trans (barrierSettle_kept _)
  · exact (h _).trans (barrierSettle_kept _)

/-! ### The sequencer and the phase unit (chapters 06 and 07) -/

theorem handField_kept (f : BarrierField) (s : State) : KeptBut [.barrier, .conds, .notices] s (handField f s).1 := by
  cases f
  · exact KeptBut.refl _ s
  · exact handCommand_kept _ s
  · exact handCommand_kept _ s
  · exact handCommand_kept _ s

theorem beginStep_kept (i : Nat) (st : StepRec) (s : State) : KeptBut [.seq, .lights, .barrier, .conds, .notices] s (beginStep i st s).1 := by
  have h (q : SeqUnit) (s : State) : KeptBut [.seq, .lights, .barrier, .conds, .notices] s { s with seq := q } := by
    intro p hp; cases p <;> first | rfl | exact ⟨rfl, rfl⟩ | exact absurd (by decide) hp
  unfold beginStep
  refine KeptBut.andThen ?_ fun t => ?_
  · exact ((h _ s).trans ((applyPattern_kept _ _ _).mono (by decide))).trans ((handField_kept _ _).mono (by decide))
  · dsimp only
    split
    · exact h _ t
    · exact KeptBut.refl _ t

theorem endRun_kept (how : EndHow) (s : State) : KeptBut [.seq, .conds, .notices] s (endRun how s).1 := by
  have h : KeptBut [.seq, .conds, .notices] s { s with seq := s.seq.ended how } := by
    intro p hp; cases p <;> first | rfl | exact ⟨rfl, rfl⟩ | exact absurd (by decide) hp
  unfold endRun
  cases how
  · exact h.trans ((clearCond_kept _ _).mono (by decide))
  · exact h
  · exact h
  · exact h.trans ((raiseCond_kept _ _).mono (by decide))

theorem judgeStep_kept (fuel : Nat) (s : State) : KeptBut [.seq, .lights, .barrier, .conds, .notices] s (judgeStep fuel s).1 := by
  have h (q : SeqUnit) : KeptBut [.seq, .lights, .barrier, .conds, .notices] s { s with seq := q } := by
    intro p hp; cases p <;> first | rfl | exact ⟨rfl, rfl⟩ | exact absurd (by decide) hp
  induction fuel generalizing s with
  | zero => exact KeptBut.refl _ s
  | succ n ih =>
    unfold judgeStep
    repeat' split
    all_goals first
      | exact KeptBut.refl _ s
      | exact (endRun_kept _ s).mono (by decide)
      | exact h _
      | exact KeptBut.andThen (beginStep_kept _ _ s) fun t => ih t fun q => by
          intro p hp; cases p <;> first | rfl | exact ⟨rfl, rfl⟩ | exact absurd (by decide) hp

theorem seqStart_kept (l : ListName) (s : State) : KeptBut [.seq, .lights, .barrier, .conds, .notices] s (seqStart l s).1 := by
  have h (q : SeqUnit) : KeptBut [.seq, .lights, .barrier, .conds, .notices] s { s with seq := q } := by
    intro p hp; cases p <;> first | rfl | exact ⟨rfl, rfl⟩ | exact absurd (by decide) hp
  unfold seqStart
  split
  · exact KeptBut.refl _ s
  · dsimp only
    split
    · exact h _
    · exact (h _).trans (KeptBut.andThen (beginStep_kept _ _ _) fun t => judgeStep_kept _ t)

theorem seqHalt_kept (s : State) : KeptBut [.seq] s (seqHalt s) := by
  unfold seqHalt
  split
  · intro p hp; cases p <;> first | rfl | exact ⟨rfl, rfl⟩ | exact absurd (by decide) hp
  · exact KeptBut.refl _ s

theorem seqStop_kept (s : State) : KeptBut [.seq, .barrier, .conds, .notices] s (seqStop s).1 := by
  have h (q : SeqUnit) : KeptBut [.seq, .barrier, .conds, .notices] s { s with seq := q } := by
    intro p hp; cases p <;> first | rfl | exact ⟨rfl, rfl⟩ | exact absurd (by decide) hp
  unfold seqStop
  split
  · exact KeptBut.andThen ((h _).trans ((handCommand_kept _ _).mono (by decide))) fun t => KeptBut.refl _ t
  · exact KeptBut.refl _ s

theorem seqRequests_kept (s : State) : KeptBut [.phase, .seq, .lights, .barrier, .conds, .notices] s (seqRequests s).1 := by
  have hd (l : Option ListName) : KeptBut [.phase, .seq, .lights, .barrier, .conds, .notices] s (defer l s) :=
    (defer_kept l s).mono (by decide)
  unfold seqRequests
  repeat' split
  all_goals first
    | exact KeptBut.refl _ s
    | exact hd _
    | exact (hd _).trans ((seqStart_kept _ _).mono (by decide))
    | exact KeptBut.andThen ((hd _).trans ((seqStop_kept _).mono (by decide))) fun t => (seqStart_kept _ t).mono (by decide)

theorem firstFaultTrigger_kept (b : Phase) (s : State) : KeptBut [.firstFault] s (firstFaultTrigger b s) := by
  unfold firstFaultTrigger
  split
  · exact KeptBut.refl _ s
  · intro p hp; cases p <;> first | rfl | exact ⟨rfl, rfl⟩ | exact absurd (by decide) hp

/-- A change of the phase unit alone. -/
theorem putPhase_kept (u : PhaseUnit) (s : State) : KeptBut movedParts s { s with phase := u } := by
  intro p hp; cases p <;> first | rfl | exact ⟨rfl, rfl⟩ | exact absurd (by decide) hp

theorem movePhase_kept (p : Phase) (s : State) : KeptBut movedParts s (movePhase p s).1 := by
  unfold movePhase
  extract_lets before s1 s2
  have h1 : KeptBut movedParts s s1 := (putPhase_kept _ s).trans ((countChange_kept _ _).mono (by decide))
  have h2 : KeptBut movedParts s1 s2 := KeptBut.ite (fun _ => (firstFaultTrigger_kept _ _).mono (by decide)) (fun _ => KeptBut.refl _ _)
  have h3 (t : State) : KeptBut movedParts t (seqRequests t).1 := (seqRequests_kept t).mono (by decide)
  have h4 (t : State) : KeptBut movedParts t (judgePassing t).1 := (judgeDcis_kept t).mono (by decide)
  exact KeptBut.andThen (KeptBut.andThen ((h1.trans h2).trans ((barrierSettle_kept _).mono (by decide))) h3) h4

theorem releaseUpkeep_kept (s : State) : KeptBut [.phase] s (releaseUpkeep s) := by
  unfold releaseUpkeep
  repeat' split
  all_goals first
    | exact KeptBut.refl _ s
    | (intro p hp; cases p <;> first | rfl | exact ⟨rfl, rfl⟩ | exact absurd (by decide) hp)

theorem releaseOne_kept (s : State) (id : Nat) : KeptBut movedParts s (releaseOne s id) := by
  refine KeptBut.trans ?_ (putPhase_kept _ _)
  exact ((mapSect_kept _ _ _).mono (by decide)).trans ((raiseCond_kept _ _).mono (by decide))

theorem makeRelease_kept (s : State) : KeptBut movedParts s (makeRelease s) := KeptBut.foldl _ releaseOne_kept _ s

theorem noteStanding_kept (s : State) : KeptBut [.phase] s (noteStanding s) := by
  unfold noteStanding
  split
  · refine KeptBut.foldl _ (fun t r => ?_) _ s
    split
    · exact KeptBut.refl _ t
    · split
      · exact KeptBut.refl _ t
      · intro p hp; cases p <;> first | rfl | exact ⟨rfl, rfl⟩ | exact absurd (by decide) hp
  · exact KeptBut.refl _ s

theorem evaluate_kept (fuel : Nat) (s : State) : KeptBut movedParts s (evaluate fuel s).1 := by
  induction fuel generalizing s with
  | zero => exact KeptBut.refl _ s
  | succ n ih =>
    unfold evaluate
    have h1 : KeptBut movedParts s (releaseUpkeep s) := (releaseUpkeep_kept s).mono (by decide)
    have h2 : KeptBut movedParts s (noteStanding (releaseUpkeep s)) := h1.trans ((noteStanding_kept _).mono (by decide))
    dsimp only
    split
    · exact (h1.trans (makeRelease_kept _)).trans (ih _)
    · split
      · exact h2
      · exact (h2.trans ((seqHalt_kept _).mono (by decide))).trans (putPhase_kept _ _)
      · exact KeptBut.andThen (h2.trans (movePhase_kept _ _)) fun t => ih t

theorem haltedEnd_kept (s : State) : KeptBut movedParts s (haltedEnd s).1 := by
  refine KeptBut.andThen ((putPhase_kept _ s).trans (evaluate_kept _ _)) fun t => ?_
  split
  · exact (seqStart_kept _ t).mono (by decide)
  · exact KeptBut.refl _ t

theorem otherEnd_kept (s : State) : KeptBut movedParts s (otherEnd s).1 := by
  refine KeptBut.andThen (evaluate_kept _ s) fun t => ?_
  split
  · split
    · exact KeptBut.refl _ t
    · exact ((defer_kept _ t).mono (by decide)).trans ((seqStart_kept _ _).mono (by decide))
  · exact KeptBut.refl _ t

theorem handleSig_kept (sig : Sig) (s : State) : KeptBut movedParts s (handleSig sig s).1 := by
  cases sig with
  | evaluate => exact evaluate_kept _ s
  | judge => exact (judgeStep_kept _ s).mono (by decide)
  | enteredJoined =>
    show KeptBut movedParts s (if s.phase.phase = .starting then (movePhase .failed s).andThen (evaluate moveFuel) else (s, [])).1
    split
    · exact KeptBut.andThen (movePhase_kept _ s) fun t => evaluate_kept _ t
    · exact KeptBut.refl _ s
  | seqEnded how =>
    cases how <;> simp only [handleSig]
    · exact otherEnd_kept s
    · split
      · exact haltedEnd_kept s
      · exact otherEnd_kept s
    · exact otherEnd_kept s
    · split
      · exact haltedEnd_kept s
      · exact otherEnd_kept s

/-- The handling of an event's signals touches the moved parts only. -/
theorem drain_kept (fuel : Nat) (sigs : List Sig) (s : State) : KeptBut movedParts s (drain fuel sigs s) := by
  induction fuel generalizing sigs s with
  | zero => exact KeptBut.refl _ s
  | succ n ih =>
    cases sigs with
    | nil => exact KeptBut.refl _ s
    | cons sig rest => exact (handleSig_kept sig s).trans (ih _ _)

@[simp] theorem drain_nil (fuel : Nat) (s : State) : drain fuel [] s = s := by
  cases fuel <;> rfl

theorem drain_cons (fuel : Nat) (sig : Sig) (rest : List Sig) (s : State) :
    drain (fuel + 1) (sig :: rest) s = drain fuel (rest ++ (handleSig sig s).2) (handleSig sig s).1 := rfl

/-! ### The line controller (chapter 04) -/

theorem request_kept (w : TxWhat) (s : State) : KeptBut [.line, .conds, .notices] s (request w s) := by
  unfold request
  repeat' split
  all_goals first
    | exact KeptBut.refl _ s
    | exact (putQueue_kept _ s).mono (by decide)
    | exact (enqueue_kept _ s).mono (by decide)
    | exact (((putQueue_kept _ s).mono (by decide)).trans ((enqueue_kept _ _).mono (by decide))).trans ((raiseCond_kept _ _).mono (by decide))

/-- A request of any other kind than SERVICE raises no condition. -/
theorem request_kept_line {w : TxWhat} (hw : w.kind ≠ .service) (s : State) : KeptBut [.line] s (request w s) := by
  unfold request
  repeat' split
  all_goals first
    | exact KeptBut.refl _ s
    | exact putQueue_kept _ s
    | exact enqueue_kept _ s
    | exact absurd (And.left ‹_›) hw

theorem queueStatus_kept (s : State) : KeptBut [.line] s (queueStatus s) := by
  refine KeptBut.trans (request_kept_line (w := .status) (by decide) s) ?_
  intro p hp; cases p <;> first | rfl | exact ⟨rfl, rfl⟩ | exact absurd (by decide) hp

theorem askStatus_kept (s : State) : KeptBut [.line] s (askStatus s) := by
  unfold askStatus
  repeat' split
  all_goals first
    | exact KeptBut.refl _ s
    | exact queueStatus_kept s
    | (intro p hp; cases p <;> first | rfl | exact ⟨rfl, rfl⟩ | exact absurd (by decide) hp)

theorem startAttempt_kept (i : TxItem) (s : State) : KeptBut [.line] s (startAttempt i s) := by
  unfold startAttempt
  split
  · exact putQueue_kept _ s
  · intro p hp; cases p <;> first | rfl | exact ⟨rfl, rfl⟩ | exact absurd (by decide) hp

theorem contend_kept (s : State) : KeptBut [.line] s (contend s) := by
  unfold contend
  repeat' split
  all_goals first
    | exact KeptBut.refl _ s
    | exact startAttempt_kept _ s

theorem statusLeft_kept (w : TxWhat) (t : Time) (s : State) : KeptBut [.line] s (statusLeft w t s) := by
  unfold statusLeft
  split
  · intro p hp; cases p <;> first | rfl | exact ⟨rfl, rfl⟩ | exact absurd (by decide) hp
  · exact KeptBut.refl _ s

theorem frameSent_kept (f : Flight) (s : State) : KeptBut [.line, .conds, .notices] s (frameSent f s) :=
  (((endFlight_kept s).mono (by decide)).trans ((clearCond_kept _ _).mono (by decide))).trans ((statusLeft_kept _ _ _).mono (by decide))

theorem frameDropped_kept (f : Flight) (s : State) : KeptBut [.line, .conds, .notices] s (frameDropped f s) :=
  (((endFlight_kept s).mono (by decide)).trans ((raiseCond_kept _ _).mono (by decide))).trans ((statusLeft_kept _ _ _).mono (by decide))

theorem frameRetried_kept (f : Flight) (s : State) : KeptBut [.line, .latches] s (frameRetried f s) := by
  unfold frameRetried
  extract_lets n s1
  have h1 : KeptBut [.line, .latches] s s1 := ((endFlight_kept s).mono (by decide)).trans ((setLatch_kept _ _).mono (by decide))
  split
  · exact h1.trans ((putQueue_kept _ _).mono (by decide))
  · exact h1.trans ((putQueue_kept _ _).mono (by decide))

theorem attemptFailed_kept (f : Flight) (s : State) : KeptBut [.line, .conds, .notices, .latches] s (attemptFailed f s) := by
  unfold attemptFailed
  repeat' split
  · exact (frameRetried_kept f s).mono (by decide)
  · exact (endFlight_kept s).mono (by decide)
  · exact (frameDropped_kept f s).mono (by decide)
  · exact (frameDropped_kept f s).mono (by decide)
  · exact (frameRetried_kept f s).mono (by decide)

theorem lineFails_kept (l : Line) (s : State) : KeptBut [.line, .latches, .conds, .notices] s (lineFails l s) :=
  (((mapLine_kept _ l s).mono (by decide)).trans ((setLatch_kept _ _).mono (by decide))).trans ((raiseCond_kept _ _).mono (by decide))

theorem lineCrcFailure_kept (l : Line) (s : State) : KeptBut [.line, .latches, .conds, .notices] s (lineCrcFailure l s) := by
  unfold lineCrcFailure
  extract_lets s1
  have h1 : KeptBut [.line, .latches, .conds, .notices] s s1 :=
    ((setLatch_kept _ s).mono (by decide)).trans ((mapLine_kept _ l _).mono (by decide))
  repeat' split
  all_goals first
    | exact h1
    | exact h1.trans (lineFails_kept l s1)

theorem lineValid_kept (l : Line) (s : State) : KeptBut [.line, .latches, .conds, .notices] s (lineValid l s) := by
  unfold lineValid
  extract_lets s1 s2
  have h1 : KeptBut [.line, .latches, .conds, .notices] s s1 := (mapLine_kept _ l s).mono (by decide)
  have h2 : KeptBut [.line, .latches, .conds, .notices] s1 s2 := KeptBut.ite (fun _ => (clearCond_kept _ _).mono (by decide)) (fun _ => KeptBut.refl _ _)
  exact (h1.trans h2).trans (KeptBut.ite (fun _ => lineFails_kept _ _) (fun _ => KeptBut.refl _ _))

/-! ### The signaller line (chapter 09) -/

theorem startNotice_kept (n : Notice) (s : State) : KeptBut [.sig, .notices] s (startNotice n s) := by
  intro p hp; cases p <;> first | rfl | exact ⟨rfl, rfl⟩ | exact absurd (by decide) hp

theorem transmit_kept (s : State) : KeptBut [.sig, .notices] s (transmit s) := by
  unfold transmit
  repeat' split
  all_goals first
    | exact KeptBut.refl _ s
    | exact (putSig_kept _ s).mono (by decide)
    | exact startNotice_kept _ s

/-! ### The end of an event -/

theorem chooseLeader_kept (s : State) : KeptBut [.flash] s (chooseLeader s) := by
  unfold chooseLeader
  extract_lets l
  split
  · exact KeptBut.refl _ s
  · intro p hp; cases p <;> first | rfl | exact ⟨rfl, rfl⟩ | exact absurd (by decide) hp

theorem followQuiet_kept (s : State) : KeptBut [.line] s (followQuiet s) := by
  unfold followQuiet
  repeat' split
  all_goals first
    | exact KeptBut.refl _ s
    | (intro p hp; cases p <;> first | rfl | exact ⟨rfl, rfl⟩ | exact absurd (by decide) hp)

/-- An attempt that the conclusion starts touches the line alone. -/
theorem contendNow_kept (s : State) : KeptBut [.line] s (contendNow s) := (contend_kept s).trans (followQuiet_kept _)

theorem completeFirstFault_kept (s0 s1 : State) : KeptBut [.firstFault] s1 (completeFirstFault s0 s1) := by
  unfold completeFirstFault
  split
  · intro p hp; cases p <;> first | rfl | exact ⟨rfl, rfl⟩ | exact absurd (by decide) hp
  · exact KeptBut.refl _ s1

/-- Where the event has not filled the first-fault record, its completion does nothing. -/
theorem completeFirstFault_same {s0 s1 : State} (h : s1.firstFault = s0.firstFault) : completeFirstFault s0 s1 = s1 := by
  unfold completeFirstFault
  split
  · rename_i h0 h1
    rw [h, h0] at h1
    exact absurd h1 (by simp)
  · rfl

/-- The conclusion of an event touches the watched parts, and the first-fault record where the event has filled it. -/
theorem conclude_kept (s0 s1 : State) : KeptBut (.firstFault :: watchedParts) s1 (conclude s0 s1) := by
  unfold conclude
  extract_lets s2 s3 s4 s5
  have h2 : KeptBut (.firstFault :: watchedParts) s1 s2 :=
    (((chooseLeader_kept s1).mono (by decide)).trans ((completeFirstFault_kept s0 _).mono (by decide))).trans ((judgeDcis_kept _).mono (by decide))
  have h3 : KeptBut (.firstFault :: watchedParts) s2 s3 := KeptBut.ite (fun _ => (askStatus_kept _).mono (by decide)) (fun _ => KeptBut.refl _ _)
  have h4 : KeptBut (.firstFault :: watchedParts) s3 s4 := (followQuiet_kept _).mono (by decide)
  have h5 : KeptBut (.firstFault :: watchedParts) s4 s5 := KeptBut.ite (fun _ => (contendNow_kept _).mono (by decide)) (fun _ => KeptBut.refl _ _)
  exact (((h2.trans h3).trans h4).trans h5).trans ((transmit_kept _).mono (by decide))

/-- The conclusion of an event that has not filled the first-fault record touches the watched parts only. -/
theorem conclude_kept_watched {s0 s1 : State} (h : s1.firstFault = s0.firstFault) : KeptBut watchedParts s1 (conclude s0 s1) := by
  unfold conclude
  extract_lets s2 s3 s4 s5
  have hc : (chooseLeader s1).firstFault = s0.firstFault := (chooseLeader_kept s1 .firstFault (by decide)).trans h
  have h2 : KeptBut watchedParts s1 s2 := by
    show KeptBut watchedParts s1 (judgeDcis (completeFirstFault s0 (chooseLeader s1)))
    rw [completeFirstFault_same hc]
    exact ((chooseLeader_kept s1).mono (by decide)).trans ((judgeDcis_kept _).mono (by decide))
  have h3 : KeptBut watchedParts s2 s3 := KeptBut.ite (fun _ => (askStatus_kept _).mono (by decide)) (fun _ => KeptBut.refl _ _)
  have h4 : KeptBut watchedParts s3 s4 := (followQuiet_kept _).mono (by decide)
  have h5 : KeptBut watchedParts s4 s5 := KeptBut.ite (fun _ => (contendNow_kept _).mono (by decide)) (fun _ => KeptBut.refl _ _)
  exact (((h2.trans h3).trans h4).trans h5).trans ((transmit_kept _).mono (by decide))

/-- The conclusion of an event leaves alone, inside the watched parts, what `WatchedKept` says. -/
theorem WatchedKept.refl (s : State) : WatchedKept s s := by constructor <;> rfl

theorem WatchedKept.trans {s t u : State} (h1 : WatchedKept s t) (h2 : WatchedKept t u) : WatchedKept s u := by
  constructor
  · exact h2.line_a.trans h1.line_a
  · exact h2.line_b.trans h1.line_b
  · exact h2.line_rxOn.trans h1.line_rxOn
  · exact h2.line_filter.trans h1.line_filter
  · exact h2.line_accepted.trans h1.line_accepted
  · exact h2.line_statusLeft.trans h1.line_statusLeft
  · exact h2.flash_mode.trans h1.flash_mode
  · exact h2.flash_second.trans h1.flash_second
  · exact h2.dci_out0.trans h1.dci_out0
  · exact h2.dci_out1.trans h1.dci_out1
  · exact h2.dci_coldStart.trans h1.dci_coldStart
  · exact h2.sig_started.trans h1.sig_started
  · exact h2.sig_lastEnd.trans h1.sig_lastEnd
  · exact h2.sig_due.trans h1.sig_due
  · exact h2.sig_rx.trans h1.sig_rx
  · exact h2.notices_kept.trans h1.notices_kept
  · exact h2.notices_present.trans h1.notices_present
  · exact h2.notices_saturated.trans h1.notices_saturated
  · exact h2.notices_entries.trans h1.notices_entries

/-- A state that keeps the five watched parts keeps what is inside them. -/
theorem KeptBut.watched {l : List Part} {s t : State} (h : KeptBut l s t) (hl : ∀ p ∈ watchedParts, p ∉ l) : WatchedKept s t := by
  have hline : t.line = s.line := h .line (hl _ (by decide))
  have hflash : t.flash = s.flash := h .flash (hl _ (by decide))
  have hdci : t.dci = s.dci := h .dci (hl _ (by decide))
  have hsig : t.sig = s.sig := h .sig (hl _ (by decide))
  have hnot : t.notices = s.notices := h .notices (hl _ (by decide))
  constructor <;> simp [hline, hflash, hdci, hsig, hnot]

theorem chooseLeader_watched (s : State) : WatchedKept s (chooseLeader s) := by
  unfold chooseLeader
  dsimp only
  split
  · exact WatchedKept.refl s
  · constructor <;> rfl

theorem dciJudge_still (s : State) (o : DciOut) : ((dciJudge s o).sections, (dciJudge s o).lamp) = (o.sections, o.lamp) := by
  unfold dciJudge
  dsimp only
  repeat' split
  all_goals rfl

theorem trimPulse_outs (u : DciUnit) : u.trimPulse.out0 = u.out0 ∧ u.trimPulse.out1 = u.out1 ∧ u.trimPulse.coldStart = u.coldStart := by
  unfold DciUnit.trimPulse
  split <;> exact ⟨rfl, rfl, rfl⟩

theorem judgeDcis_watched (s : State) : WatchedKept s (judgeDcis s) := by
  have h := trimPulse_outs { s.dci with out0 := s.dci.out0.map (dciJudge s), out1 := s.dci.out1.map (dciJudge s) }
  have hj (o : Option DciOut) : (o.map (dciJudge s)).map (fun o => (o.sections, o.lamp)) = o.map (fun o => (o.sections, o.lamp)) := by
    cases o with
    | none => rfl
    | some o => exact congrArg some (dciJudge_still s o)
  constructor <;> try rfl
  · exact (congrArg (Option.map _) h.1).trans (hj _)
  · exact (congrArg (Option.map _) h.2.1).trans (hj _)
  · exact h.2.2

theorem request_status_watched (s : State) : WatchedKept s (request .status s) := by
  unfold request
  repeat' split
  all_goals first
    | exact WatchedKept.refl s
    | (constructor <;> rfl)
    | exact absurd (And.left ‹_›) (by decide)

theorem queueStatus_watched (s : State) : WatchedKept s (queueStatus s) := by
  have h (s : State) (b : Bool) : WatchedKept s { s with line := { s.line with heldBack := b } } := by constructor <;> rfl
  exact (request_status_watched s).trans (h _ _)

theorem askStatus_watched (s : State) : WatchedKept s (askStatus s) := by
  have h (b : Bool) : WatchedKept s { s with line := { s.line with heldBack := b } } := by constructor <;> rfl
  unfold askStatus
  repeat' split
  · exact queueStatus_watched s
  · exact h _
  · exact h _
  · exact WatchedKept.refl s

theorem followQuiet_watched (s : State) : WatchedKept s (followQuiet s) := by
  unfold followQuiet
  repeat' split
  all_goals first
    | exact WatchedKept.refl s
    | (constructor <;> rfl)

theorem bumpSeq_watched (u : LineUnit) (k : FrameKind) : (u.bumpSeq k).a = u.a ∧ (u.bumpSeq k).b = u.b ∧ (u.bumpSeq k).rxOn = u.rxOn
    ∧ (u.bumpSeq k).filter = u.filter ∧ (u.bumpSeq k).accepted = u.accepted ∧ (u.bumpSeq k).statusLeft = u.statusLeft := by
  cases k <;> exact ⟨rfl, rfl, rfl, rfl, rfl, rfl⟩

theorem startAttempt_watched (i : TxItem) (s : State) : WatchedKept s (startAttempt i s) := by
  have h := bumpSeq_watched s.line i.what.kind
  unfold startAttempt
  split
  · constructor <;> rfl
  · dsimp only
    split
    · constructor <;> first | rfl | exact h.1 | exact h.2.1 | exact h.2.2.1 | exact h.2.2.2.1 | exact h.2.2.2.2.1 | exact h.2.2.2.2.2
    · constructor <;> rfl

theorem contend_watched (s : State) : WatchedKept s (contend s) := by
  unfold contend
  repeat' split
  all_goals first
    | exact WatchedKept.refl s
    | exact startAttempt_watched _ s

theorem contendNow_watched (s : State) : WatchedKept s (contendNow s) := (contend_watched s).trans (followQuiet_watched _)

theorem transmit_watched (s : State) : WatchedKept s (transmit s) := by
  unfold transmit
  repeat' split
  all_goals first
    | exact WatchedKept.refl s
    | (constructor <;> rfl)
    | (constructor <;> try rfl
       simp only [startNotice, putSig, NoticeUnit.mapEntry, List.map_map]
       refine List.map_congr_left fun n _ => ?_
       simp only [Function.comp]
       split <;> rfl)

/-- The conclusion of an event that has not filled the first-fault record: what it may touch at all. -/
theorem conclude_concluded {s0 s1 : State} (h : s1.firstFault = s0.firstFault) : Concluded s1 (conclude s0 s1) := by
  refine ⟨conclude_kept_watched h, ?_⟩
  have hc : (chooseLeader s1).firstFault = s0.firstFault := (chooseLeader_kept s1 .firstFault (by decide)).trans h
  have h2 : WatchedKept s1 (judgeDcis (completeFirstFault s0 (chooseLeader s1))) := by
    rw [completeFirstFault_same hc]
    exact (chooseLeader_watched s1).trans (judgeDcis_watched _)
  have ha (c : Prop) [Decidable c] (s : State) : WatchedKept s (if c then askStatus s else s) := by
    split
    · exact askStatus_watched s
    · exact WatchedKept.refl s
  have hb (c : Bool) (s : State) : WatchedKept s (if c then contendNow s else s) := by
    split
    · exact contendNow_watched s
    · exact WatchedKept.refl s
  unfold conclude
  dsimp only
  exact (((h2.trans (ha _ _)).trans (followQuiet_watched _)).trans (hb _ _)).trans (transmit_watched _)

/-! ### Events -/

/-- An event of an unpowered station only passes time. -/
theorem event_unpowered {dt : Nat} {s : State} {f : State → Work} (h : s.powered = false) : event dt s f = advance dt s := by
  simp [event, h]

/-- The signals of an event: those of its work, and an evaluation where what the phase unit watches has changed. -/
theorem event_eq {dt : Nat} {s : State} {f : State → Work} (h : s.powered = true) :
    event dt s f = conclude (advance dt s) (drain drainFuel ((f (advance dt s)).2
      ++ if phaseInputsChanged (advance dt s) (f (advance dt s)).1 then [.evaluate] else []) (f (advance dt s)).1) := by
  simp [event, h]

theorem phaseInputsChanged_same {s0 s1 : State} (hs : s1.sections = s0.sections) (hp : s1.peers = s0.peers) : phaseInputsChanged s0 s1 = false := by
  simp [phaseInputsChanged, hs, hp]

/-- An event whose work gives no signal and changes nothing that the phase unit watches is that work and the conclusion. -/
theorem event_quiet {dt : Nat} {s s1 : State} {f : State → Work} (h : s.powered = true) (hf : f (advance dt s) = (s1, []))
    (hs : s1.sections = (advance dt s).sections) (hp : s1.peers = (advance dt s).peers) : event dt s f = conclude (advance dt s) s1 := by
  rw [event_eq h, hf, phaseInputsChanged_same hs hp]
  simp

/-- An event whose work gives no signal, changes nothing that the phase unit watches and does not fill the first-fault record ends in the state after the
work, but for what the conclusion may touch. -/
theorem event_concluded {dt : Nat} {s s1 : State} {f : State → Work} (h : s.powered = true) (hf : f (advance dt s) = (s1, []))
    (hs : s1.sections = (advance dt s).sections) (hp : s1.peers = (advance dt s).peers) (hff : s1.firstFault = (advance dt s).firstFault) :
    Concluded s1 (event dt s f) := by
  rw [event_quiet h hf hs hp]
  exact conclude_concluded hff

/-- An event touches what its work touches, what the handling of signals touches and what the conclusion touches. -/
theorem event_kept {dt : Nat} {s : State} {f : State → Work} {l : List Part} (hf : KeptBut l (advance dt s) (f (advance dt s)).1) :
    KeptBut (l ++ followedParts) (advance dt s) (event dt s f) := by
  unfold event
  extract_lets s0 w
  have hm : l ⊆ l ++ followedParts := List.subset_append_left _ _
  have hr : followedParts ⊆ l ++ followedParts := List.subset_append_right _ _
  split
  · have h1 : KeptBut (l ++ followedParts) s0 w.1 := hf.mono hm
    have h2 (sigs : List Sig) : KeptBut (l ++ followedParts) w.1 (drain drainFuel sigs w.1) :=
      (drain_kept _ sigs w.1).mono (fun x hx => hr ((show movedParts ⊆ followedParts by decide) hx))
    exact (h1.trans (h2 _)).trans ((conclude_kept s0 _).mono
      (fun x hx => hr ((show Part.firstFault :: watchedParts ⊆ followedParts by decide) hx)))
  · exact KeptBut.refl _ _

end Sys2Proof.Machine
end

