-- ==== Sys2Proof/Laws/Blocks.lean ====
section
/-! SUPPORT. What the operations of the detection, calibration, joining and reception blocks leave alone. -/

namespace Sys2Proof.Machine

/-- The parts that a change of a DP's state may reach: its record, and what follows its entry into FAULTED. -/
def dpParts : List Part := [.dps, .sections, .conds, .notices, .phase]

/-- The parts that a sweep's work may reach: those of the DP and the reply of CALIBRATE. -/
def sweepParts : List Part := .port :: dpParts

/-- The parts that a change of the join or of a peer's state may reach. -/
def joinParts : List Part := [.join, .peers, .view, .line, .sections, .conds, .notices, .phase, .lights, .barrier]

/-! ### Detection points (chapter 01) -/

theorem setDpState_kept (slot : Slot) (st : DpState) (s : State) : KeptBut dpParts s (setDpState slot st s) := by
  unfold setDpState
  split
  · exact KeptBut.refl _ s
  · rename_i u _
    have h1 : KeptBut dpParts s (putDp { u with state := st } s) := (putDp_kept _ s).mono (by decide)
    dsimp only
    repeat' split
    · exact h1
    · exact (h1.trans ((raiseCond_kept _ _).mono (by decide))).trans ((dpFaultsSections_kept _ _).mono (by decide))
    · exact h1.trans ((clearCond_kept _ _).mono (by decide))
    · exact h1

theorem dpWorks_kept (slot : Slot) (s : State) : KeptBut dpParts s (dpWorks slot s) := by
  unfold dpWorks
  split
  · exact KeptBut.refl _ s
  · exact ((putDp_kept _ s).mono (by decide)).trans (setDpState_kept _ _ _)

theorem settleDp_kept (slot : Slot) (s : State) : KeptBut dpParts s (settleDp slot s) := by
  unfold settleDp
  repeat' split
  · exact KeptBut.refl _ s
  · exact setDpState_kept _ _ s
  · exact dpWorks_kept _ s

theorem unorderedEvent_kept (slot : Slot) (t : Time) (s : State) : KeptBut (.latches :: dpParts) s (unorderedEvent slot t s) := by
  have h1 : KeptBut (.latches :: dpParts) s (setLatch .unorderedSeen s) := (setLatch_kept _ s).mono (by decide)
  unfold unorderedEvent
  dsimp only
  split
  · exact h1
  · split
    · exact (h1.trans ((putDp_kept _ _).mono (by decide))).trans ((setDpState_kept _ _ _).mono (by decide))
    · exact h1.trans ((putDp_kept _ _).mono (by decide))

theorem noteSpeed_kept (slot : Slot) (v : Nat) (c : Bool) (s : State) : KeptBut [.dps, .latches, .conds, .notices] s (noteSpeed slot v c s) := by
  unfold noteSpeed
  split
  · exact KeptBut.refl _ s
  · rename_i u _
    have h1 : KeptBut [.dps, .latches, .conds, .notices] s (putDp { u with lastSpeed := v } s) := (putDp_kept _ s).mono (by decide)
    dsimp only
    split
    · exact (h1.trans ((setLatch_kept _ _).mono (by decide))).trans ((raiseCond_kept _ _).mono (by decide))
    · exact h1

/-- The parts that an axle may reach: its DP, the sections it bounds, the latches, the conditions, and the transmit queue for its STRIKE. -/
def axleParts : List Part := [.dps, .sections, .conds, .notices, .phase, .latches, .line]

theorem countAxle_kept (u : DpUnit) (a : Axle) (s : State) : KeptBut axleParts s (countAxle u a s) := by
  unfold countAxle
  extract_lets u1 s1 cross now tm v measured s2 s3 s4 s5
  have h1 : KeptBut axleParts s s1 := (putDp_kept _ s).mono (by decide)
  have h2 : KeptBut axleParts s1 s2 := (mapSects_kept _ _ _).mono (by decide)
  have h3 : KeptBut axleParts s2 s3 := (mapSect_kept _ _ _).mono (by decide)
  have h4 : KeptBut axleParts s3 s4 := KeptBut.ite (fun _ => (noteSpeed_kept _ _ _ _).mono (by decide)) (fun _ => KeptBut.refl _ _)
  have h5 : KeptBut axleParts s4 s5 :=
    KeptBut.ite (fun _ => ((setLatch_kept _ _).mono (by decide)).trans ((raiseCond_kept _ _).mono (by decide))) (fun _ => KeptBut.refl _ _)
  exact ((((h1.trans h2).trans h3).trans h4).trans h5).trans
    (KeptBut.ite (fun _ => (request_kept _ _).mono (by decide)) (fun _ => KeptBut.refl _ _))

theorem takeMove_kept (u : DpUnit) (m : Recognised) (s : State) : KeptBut axleParts s (takeMove u m s) := by
  unfold takeMove
  dsimp only
  have h1 : KeptBut axleParts s (putDp { u with recog := m.1 } s) := (putDp_kept _ s).mono (by decide)
  split
  · exact h1
  · exact h1.trans (countAxle_kept _ _ _)

theorem takeEdges_kept (slot : Slot) (x y : Bool) (s : State) : KeptBut axleParts s (takeEdges slot x y s) := by
  unfold takeEdges
  split
  · exact KeptBut.refl _ s
  · dsimp only
    split
    · exact (putDp_kept _ s).mono (by decide)
    · have h1 (v : DpUnit) : KeptBut axleParts s (putDp v s) := (putDp_kept v s).mono (by decide)
      have h2 (t : Time) (s : State) : KeptBut axleParts s (unorderedEvent slot t s) := (unorderedEvent_kept slot t s).mono (by decide)
      split
      · split
        · exact h1 _
        · exact (h1 _).trans (h2 _ _)
        · exact takeMove_kept _ _ s
      · exact takeMove_kept _ _ s

theorem takeSample_kept (slot : Slot) (p : HeadPos) (level : Nat) (s : State) : KeptBut [.dps] s (takeSample slot p level s) := by
  unfold takeSample
  repeat' split
  all_goals first
    | exact KeptBut.refl _ s
    | exact putDp_kept _ s

/-! ### Calibration (chapter 01) -/

theorem sweepReply_kept (k : SweepKind) (x y : SweepResult) (s : State) : KeptBut [.port] s (sweepReply k x y s) := by
  cases k
  · exact KeptBut.refl _ s
  · exact KeptBut.refl _ s
  · exact putReply_kept _ s
  · exact putReply_kept _ s

theorem startSweep_kept (k : SweepKind) (slot : Slot) (s : State) : KeptBut dpParts s (startSweep k slot s) := by
  unfold startSweep
  split
  · exact KeptBut.refl _ s
  · exact ((putDp_kept _ s).mono (by decide)).trans (setDpState_kept _ _ _)

theorem enterResult_kept (slot : Slot) (p : HeadPos) (r : SweepResult) (s : State) : KeptBut dpParts s (enterResult slot p r s) := by
  unfold enterResult
  split
  · exact KeptBut.refl _ s
  · split
    · exact ((putDp_kept _ s).mono (by decide)).trans ((clearCond_kept _ _).mono (by decide))
    · exact (raiseCond_kept _ _).mono (by decide)
    · exact KeptBut.refl _ s
    · exact KeptBut.refl _ s

theorem endSweep_kept (slot : Slot) (k : SweepKind) (x y : SweepResult) (l : Levels) (s : State) : KeptBut sweepParts s (endSweep slot k x y l s) := by
  unfold endSweep
  split
  · exact KeptBut.refl _ s
  · dsimp only
    exact (((putDp_kept _ s).mono (by decide)).trans ((settleDp_kept _ _).mono (by decide))).trans ((sweepReply_kept _ _ _ _).mono (by decide))

theorem headDone_kept (slot : Slot) (w : Sweep) (r : SweepResult) (l : Levels) (s : State) : KeptBut sweepParts s (headDone slot w r l s) := by
  unfold headDone
  split
  · exact KeptBut.refl _ s
  · dsimp only
    split
    · exact ((enterResult_kept _ _ _ s).mono (by decide)).trans (endSweep_kept _ _ _ _ _ _)
    · split
      · exact (enterResult_kept _ _ _ s).mono (by decide)
      · exact ((enterResult_kept _ _ _ s).mono (by decide)).trans ((putDp_kept _ _).mono (by decide))

theorem putSweep_kept (u : DpUnit) (w : Sweep) (s : State) : KeptBut [.dps] s (putSweep u w s) := putDp_kept _ s

theorem windowEnd_kept (slot : Slot) (n : Nat) (l : Levels) (s : State) : KeptBut sweepParts s (windowEnd slot n l s) := by
  unfold windowEnd
  dsimp only
  repeat' split
  all_goals first
    | exact KeptBut.refl _ s
    | exact (putSweep_kept _ _ s).mono (by decide)
    | exact headDone_kept _ _ _ _ s

theorem abandonSweep_kept (slot : Slot) (u : DpUnit) (w : Sweep) (l : Levels) (s : State) : KeptBut sweepParts s (abandonSweep slot u w l s) := by
  unfold abandonSweep
  dsimp only
  exact (((putDp_kept _ s).mono (by decide)).trans ((settleDp_kept _ _).mono (by decide))).trans ((sweepReply_kept _ _ _ _).mono (by decide))

theorem abandonStart_kept (slot : Slot) (u : DpUnit) (w : Sweep) (l : Levels) (s : State) : KeptBut sweepParts s (abandonStart slot u w l s) := by
  unfold abandonStart
  split
  · exact headDone_kept _ _ _ _ s
  · exact (putSweep_kept _ _ s).mono (by decide)

theorem supplyEndsSweep_kept (slot : Slot) (u : DpUnit) (w : Sweep) (l : Levels) (s : State) :
    KeptBut sweepParts s (supplyEndsSweep slot u w l s) := by
  unfold supplyEndsSweep
  dsimp only
  exact (((putDp_kept _ s).mono (by decide)).trans ((setDpState_kept _ _ _).mono (by decide))).trans ((sweepReply_kept _ _ _ _).mono (by decide))

theorem supplyCheck_kept (slot : Slot) (p : HeadPos) (x : Nat) (l : Levels) (s : State) : KeptBut sweepParts s (supplyCheck slot p x l s) := by
  unfold supplyCheck
  split
  · exact KeptBut.refl _ s
  · dsimp only
    repeat' split
    all_goals first
      | exact (putDp_kept _ s).mono (by decide)
      | exact ((putDp_kept _ s).mono (by decide)).trans (supplyEndsSweep_kept _ _ _ _ _)
      | exact ((putDp_kept _ s).mono (by decide)).trans ((setDpState_kept _ _ _).mono (by decide))
      | exact ((putDp_kept _ s).mono (by decide)).trans ((dpWorks_kept _ _).mono (by decide))

/-! ### Joining and peers (chapter 05) -/

theorem setPeerState_kept (n : Nat) (st : PeerState) (s : State) :
    KeptBut [.peers, .view, .sections, .conds, .notices, .phase] s (setPeerState n st s) := by
  unfold setPeerState
  split
  · exact KeptBut.refl _ s
  · split
    · exact KeptBut.refl _ s
    · rename_i p _ _
      extract_lets p1 p2 s1 s2 s3 s4 s5 s6
      have h1 : KeptBut [.peers, .view, .sections, .conds, .notices, .phase] s s1 := (putPeer_kept _ s).mono (by decide)
      have h2 : KeptBut [.peers, .view, .sections, .conds, .notices, .phase] s1 s2 :=
        KeptBut.ite (fun _ => (clearCond_kept _ _).mono (by decide)) (fun _ => KeptBut.refl _ _)
      have h3 : KeptBut [.peers, .view, .sections, .conds, .notices, .phase] s2 s3 :=
        KeptBut.ite (fun _ => (clearCond_kept _ _).mono (by decide)) (fun _ => KeptBut.refl _ _)
      have h4 : KeptBut [.peers, .view, .sections, .conds, .notices, .phase] s3 s4 :=
        KeptBut.ite (fun _ => (clearCond_kept _ _).mono (by decide)) (fun _ => KeptBut.refl _ _)
      have h5 : KeptBut [.peers, .view, .sections, .conds, .notices, .phase] s4 s5 :=
        KeptBut.ite (fun _ => (raiseCond_kept _ _).mono (by decide)) (fun _ => KeptBut.refl _ _)
      have h6 : KeptBut [.peers, .view, .sections, .conds, .notices, .phase] s5 s6 :=
        KeptBut.ite (fun _ => (raiseCond_kept _ _).mono (by decide)) (fun _ => KeptBut.refl _ _)
      exact (((((h1.trans h2).trans h3).trans h4).trans h5).trans h6).trans
        (KeptBut.ite (fun _ => (loseOwner_kept _ _).mono (by decide)) (fun _ => KeptBut.refl _ _))

theorem setVerdict_kept (n : Nat) (v : Verdict) (s : State) : KeptBut [.join] s (setVerdict n v s) := by
  unfold setVerdict
  split
  · intro p hp; cases p <;> first | rfl | exact ⟨rfl, rfl⟩ | exact absurd (by decide) hp
  · exact KeptBut.refl _ s

theorem enterHailing_kept (s : State) : KeptBut [.join, .line] s (enterHailing s) :=
  ((putJoin_kept _ s).mono (by decide)).trans ((request_kept_line (by decide) _).mono (by decide))

theorem leaveCalibrating_kept (s : State) : KeptBut [.join, .line] s (leaveCalibrating s) := by
  unfold leaveCalibrating
  split
  · exact enterHailing_kept s
  · exact KeptBut.refl _ s

theorem enterJoined_kept (s : State) : KeptBut joinParts s (enterJoined s).1 := by
  have hf (l : List Nat) (s : State) : KeptBut joinParts s (l.foldl (fun w n => setPeerState n .stale w) s) :=
    KeptBut.foldl _ (fun t n => (setPeerState_kept n .stale t).mono (by decide)) _ _
  have hq (s : State) : KeptBut joinParts s (queueStatus s) := (queueStatus_kept s).mono (by decide)
  have hj (f : JoinUnit → JoinUnit) : KeptBut joinParts s (putJoin f s) := (putJoin_kept f s).mono (by decide)
  unfold enterJoined
  dsimp only
  exact ((hj _).trans (hf _ _)).trans (hq _)

theorem enterLockedOut_kept (s : State) : KeptBut joinParts s (enterLockedOut s).1 := by
  unfold enterLockedOut
  dsimp only
  have h1 (f : JoinUnit → JoinUnit) : KeptBut joinParts s (putJoin f s) := (putJoin_kept _ s).mono (by decide)
  have h2 (f : JoinUnit → JoinUnit) (u : LineUnit) : KeptBut joinParts s { putJoin f s with line := u } :=
    (h1 f).trans ((putLine_kept _ _).mono (by decide))
  split
  · exact ((h2 _ _).trans ((applyPattern_kept _ _ _).mono (by decide))).trans ((handCommand_kept _ _).mono (by decide))
  · exact h2 _ _

theorem endJoining_kept (s : State) : KeptBut joinParts s (endJoining s).1 := by
  unfold endJoining
  split
  · exact enterJoined_kept s
  · exact enterLockedOut_kept s

theorem testCompletion_kept (s : State) : KeptBut joinParts s (testCompletion s).1 := by
  unfold testCompletion
  split
  · exact endJoining_kept s
  · exact KeptBut.refl _ s

/-! ### Reception and frames taken (chapters 03 to 05) -/

theorem secondCopy_kept (l : Line) (f : Frame) (s : State) : KeptBut [.line, .peers] s (secondCopy l f s) := by
  unfold secondCopy
  repeat' split
  all_goals first
    | exact KeptBut.refl _ s
    | (intro p hp; cases p <;> first | rfl | exact ⟨rfl, rfl⟩ | exact absurd (by decide) hp)

theorem receive_kept (l : Line) (bytes : List Byte) (s : State) : KeptBut [.line, .peers, .latches, .conds, .notices] s (receive l bytes s) := by
  unfold receive
  split
  · exact (lineCrcFailure_kept l s).mono (by decide)
  · exact (lineCrcFailure_kept l s).mono (by decide)
  · exact (mapLine_kept _ l s).mono (by decide)
  · dsimp only
    have h1 : KeptBut [.line, .peers, .latches, .conds, .notices] s (lineValid l s) := (lineValid_kept l s).mono (by decide)
    repeat' split
    · exact h1
    · exact h1.trans ((secondCopy_kept _ _ _).mono (by decide))
    · exact h1.trans ((acceptFrame_kept _ _ _).mono (by decide))

theorem takeStrike_kept (a : Accepted) (b : StrikeBody) (s : State) : KeptBut [.view, .sections, .conds, .notices, .phase] s (takeStrike a b s) := by
  unfold takeStrike
  split
  · exact ((mapView_kept _ _ s).mono (by decide)).trans ((peerCounts_kept _ _ _ _).mono (by decide))
  · exact KeptBut.refl _ s

theorem enterDpState_kept (e : Byte) (s : State) (r : DpReport) : KeptBut [.view, .sections, .conds, .notices, .phase] s (enterDpState e s r) := by
  unfold enterDpState
  dsimp only
  have h1 (f : ViewEntry → ViewEntry) : KeptBut [.view, .sections, .conds, .notices, .phase] s (mapView r.dp f s) := (mapView_kept _ _ s).mono (by decide)
  split
  · exact (h1 _).trans ((dpFaultsSections_kept _ _).mono (by decide))
  · exact h1 _

theorem takeReports_kept (n : Nat) (e : Byte) (l : List DpReport) (ret : Bool) (s : State) :
    KeptBut [.view, .sections, .conds, .notices, .phase] s (takeReports n e l ret s) := by
  unfold takeReports
  dsimp only
  exact ((peerCounts_kept _ _ _ s).mono (by decide)).trans (KeptBut.foldl _ (enterDpState_kept e) _ _)

theorem statusMeasure_kept (a : Accepted) (b : StatusBody) (l : Option Nat) (s : State) : KeptBut [.flash] s (statusMeasure a b l s) := by
  unfold statusMeasure
  repeat' split
  all_goals first
    | exact KeptBut.refl _ s
    | (intro p hp; cases p <;> first | rfl | exact ⟨rfl, rfl⟩ | exact absurd (by decide) hp)

theorem compareStatus_kept (n : Nat) (t : Time) (b : StatusBody) (s : State) : KeptBut [.peers, .conds, .notices] s (compareStatus n t b s) := by
  unfold compareStatus
  dsimp only
  split
  · exact (mapPeer_kept _ _ s).mono (by decide)
  · exact ((mapPeer_kept _ _ s).mono (by decide)).trans ((clearCond_kept _ _).mono (by decide))

/-- The parts that a STATUS may reach at its peer entry. -/
def statusParts : List Part := [.peers, .view, .flash] ++ movedParts

theorem liveEntry_kept (a : Accepted) (b : StatusBody) (p : Peer) (s : State) : KeptBut statusParts s (liveEntry a b p s) := by
  unfold liveEntry
  extract_lets s1
  have h1 : KeptBut statusParts s s1 := ((mapPeer_kept _ _ s).mono (by decide)).trans ((setPeerState_kept _ _ _).mono (by decide))
  exact h1.trans (KeptBut.ite (fun _ => KeptBut.refl _ _) (fun _ => (drain_kept _ _ _).mono (by decide)))

theorem statusHandedOn_kept (a : Accepted) (b : StatusBody) (p : Peer) (s : State) : KeptBut statusParts s (statusHandedOn a b p s) :=
  ((liveEntry_kept a b p s).trans ((takeReports_kept _ _ _ _ _).mono (by decide))).trans ((drain_kept _ _ _).mono (by decide))

theorem enterStatus_kept (a : Accepted) (b : StatusBody) (p : Peer) (s : State) : KeptBut statusParts s (enterStatus a b p s) := by
  unfold enterStatus
  extract_lets s1
  have h1 : KeptBut statusParts s s1 :=
    ((statusHandedOn_kept a b p s).trans ((statusMeasure_kept _ _ _ _).mono (by decide))).trans ((noticeSync_kept _).mono (by decide))
  exact h1.trans (KeptBut.ite (fun _ => (compareStatus_kept _ _ _ _).mono (by decide)) (fun _ => KeptBut.refl _ _))

theorem takeStatus_kept (a : Accepted) (b : StatusBody) (s : State) : KeptBut (statusParts ++ joinParts) s (takeStatus a b s).1 := by
  unfold takeStatus
  split
  · exact KeptBut.refl _ s
  · extract_lets s1
    refine KeptBut.trans (t := s1) ?_ (((setVerdict_kept _ _ s1).mono (by decide)).trans ((testCompletion_kept _).mono (by decide)))
    unfold s1
    split
    · exact (enterStatus_kept _ _ _ s).mono (by decide)
    · exact ((mapPeer_kept _ _ s).mono (by decide)).trans ((setPeerState_kept _ _ _).mono (by decide))

theorem takeJoin_kept (a : Accepted) (b : JoinBody) (s : State) :
    KeptBut [.join, .peers, .view, .sections, .conds, .notices, .phase] s (takeJoin a b s) := by
  unfold takeJoin
  split
  · exact KeptBut.refl _ s
  · dsimp only
    exact (((mapPeer_kept _ _ s).mono (by decide)).trans ((setPeerState_kept _ _ _).mono (by decide))).trans
      ((setVerdict_kept _ _ _).mono (by decide))

theorem answerHail_kept (n : Nat) (s : State) : KeptBut [.line] s (answerHail n s) := by
  unfold answerHail
  split
  all_goals first
    | exact KeptBut.refl _ s
    | exact request_kept_line (by simp [TxWhat.kind]) s

/-! ### Port (chapter 11) -/

theorem takeCommand_kept {l : List Part} (hl : Part.port ∈ l) (cmd : PortCmd) {act : State → State} (s : State) (h : KeptBut l s (act s)) :
    KeptBut l s (takeCommand cmd act s) := by
  have hp : [Part.port] ⊆ l := by simpa using hl
  unfold takeCommand
  split
  · exact (busyPort_kept s).mono hp
  · split
    · exact (putPort_kept _ _ s).mono hp
    · exact h

theorem answered_kept (cmd : PortCmd) (r : State → Reply) (s : State) : KeptBut [.port] s (answered cmd r s) :=
  takeCommand_kept (by decide) cmd s (putPort_kept _ _ s)

end Sys2Proof.Machine
end

