-- ==== Sys2Proof/Laws/Formats.lean ====
section
/-! SUPPORT. What the readers of received bytes can answer: frames of the crossing line, bytes from the box, lines at the maintainer port. -/

namespace Sys2Proof.Machine

/-- A frame read has its fields readable and is the frame of exactly these bytes. -/
theorem readFrame_eq_some {bytes : List Byte} {f : Frame} : readFrame bytes = some f ↔ readFields bytes = some f ∧ f.bytes = bytes := by
  simp [readFrame, Option.filter_eq_some_iff]

/-- The search for a start byte passes over bytes that are none. -/
theorem fromStart_append {noise : List RxByte} (h : ∀ x ∈ noise, x.byte ≠ 165#8) (l : List RxByte) : fromStart (noise ++ l) = fromStart l := by
  induction noise with
  | nil => rfl
  | cons x rest ih => simp_all [fromStart]

/-- The split puts no byte aside. -/
theorem splitLate_append (t : Time) (l : List RxByte) : (splitLate t l).1 ++ (splitLate t l).2 = l := by
  induction l generalizing t with
  | nil => rfl
  | cons x rest ih =>
    unfold splitLate
    split
    · rfl
    · exact congrArg (x :: ·) (ih x.time)

/-- A run of bytes without a gap is not split. -/
theorem splitLate_unbroken {x : RxByte} {l : List RxByte} (h : unbroken (x :: l) = true) : splitLate x.time l = (l, []) := by
  induction l generalizing x with
  | nil => rfl
  | cons y rest ih =>
    simp only [unbroken, Bool.and_eq_true, Bool.not_eq_true'] at h
    simp [splitLate, h.1, ih h.2]

/-- A run of bytes with a gap is split before a byte of it. -/
theorem splitLate_broken {x : RxByte} {l : List RxByte} (h : unbroken (x :: l) = false) : (splitLate x.time l).2 ≠ [] := by
  induction l generalizing x with
  | nil => simp [unbroken] at h
  | cons y rest ih =>
    unfold splitLate
    split
    · simp
    · rename_i hy
      simp only [unbroken, Bool.and_eq_false_iff, Bool.not_eq_false'] at h
      exact ih (h.resolve_left hy)

/-- A run of one byte and more flows where the first pair does and the rest does. -/
theorem flowing_cons (x y : RxByte) (l : List RxByte) : flowing (x :: y :: l) = (!stopped x.time y.time && flowing (y :: l)) := rfl

/-- A whole line is read exactly where one carriage return ends a run without the silence. -/
theorem readLineFrom_eq_line {now : Time} {x : RxByte} {l : List RxByte} :
    readLineFrom now x l = .line ↔ ∃ part cr, x :: l = part ++ [cr] ∧ cr.byte = 13#8 ∧ (∀ y ∈ part, y.byte ≠ 13#8) ∧ flowing (x :: l) = true := by
  induction l generalizing x with
  | nil =>
    constructor
    · intro h
      refine ⟨[], x, rfl, ?_, by simp, rfl⟩
      unfold readLineFrom at h; split at h <;> first | assumption | (split at h <;> cases h)
    · rintro ⟨part, cr, h, hc, -, -⟩
      obtain ⟨rfl, rfl⟩ : part = [] ∧ cr = x := by cases part <;> simp_all
      simp [readLineFrom, hc]
  | cons z rest ih =>
    constructor
    · intro h
      unfold readLineFrom at h
      split at h
      · cases h
      split at h
      · cases h
      · obtain ⟨part, cr, he, hc, hp, hf⟩ := ih.1 h
        refine ⟨x :: part, cr, by simp [he], hc, ?_, ?_⟩
        · simp only [List.mem_cons, forall_eq_or_imp]; exact ⟨‹_›, hp⟩
        · rw [flowing_cons, hf]; simp_all
    · rintro ⟨part, cr, he, hc, hp, hf⟩
      obtain ⟨part, rfl⟩ : ∃ p, part = x :: p := by cases part <;> simp_all
      simp only [List.cons_append, List.cons.injEq, true_and] at he
      simp only [flowing_cons, Bool.and_eq_true, Bool.not_eq_true'] at hf
      simp only [List.mem_cons, forall_eq_or_imp] at hp
      simp only [readLineFrom, hp.1, hf.1, if_false]
      exact ih.2 ⟨part, cr, he, hc, hp.2, hf.2⟩

/-- A line is broken off exactly where a run without the silence and without a carriage return is followed by the silence, up to the next byte or up
to now. -/
theorem readLineFrom_eq_timeout {now : Time} {x : RxByte} {l left : List RxByte} :
    readLineFrom now x l = .timeout left ↔ ∃ part z, x :: l = part ++ z :: left ∧ flowing (part ++ [z]) = true ∧ (∀ y ∈ part ++ [z], y.byte ≠ 13#8)
      ∧ stopped z.time (match left with
        | [] => now
        | y :: _ => y.time) = true := by
  induction l generalizing x with
  | nil =>
    constructor
    · intro h
      unfold readLineFrom at h
      split at h
      · cases h
      split at h
      · cases h; exact ⟨[], x, rfl, rfl, by simpa, ‹_›⟩
      · cases h
    · rintro ⟨part, z, he, -, hp, hs⟩
      obtain ⟨rfl, rfl, rfl⟩ : part = [] ∧ z = x ∧ left = [] := by cases part <;> simp_all
      simp only [List.nil_append, List.mem_singleton, forall_eq] at hp
      simp_all [readLineFrom]
  | cons w rest ih =>
    constructor
    · intro h
      unfold readLineFrom at h
      split at h
      · cases h
      split at h
      · cases h; exact ⟨[], x, rfl, rfl, by simpa, ‹_›⟩
      · obtain ⟨part, z, he, hf, hp, hs⟩ := ih.1 h
        refine ⟨x :: part, z, by simp [he], ?_, ?_, hs⟩
        · cases part <;> simp_all [flowing_cons]
        · simp only [List.cons_append, List.mem_cons, forall_eq_or_imp]; exact ⟨‹_›, hp⟩
    · rintro ⟨part, z, he, hf, hp, hs⟩
      cases part with
      | nil =>
        obtain ⟨rfl, rfl⟩ : x = z ∧ w :: rest = left := by simpa using he
        simp only [List.nil_append, List.mem_singleton, forall_eq] at hp
        simp_all [readLineFrom]
      | cons a part =>
        obtain ⟨rfl, hr⟩ : x = a ∧ w :: rest = part ++ z :: left := by simpa only [List.cons_append, List.cons.injEq] using he
        simp only [List.cons_append, List.mem_cons, forall_eq_or_imp] at hp
        have hw : flowing (part ++ [z]) = true ∧ stopped x.time w.time = false := by cases part <;> simp_all [flowing_cons]
        simp only [readLineFrom, hp.1, hw.2, if_false]
        simpa using ih.2 ⟨part, z, hr, hw.1, hp.2, hs⟩

end Sys2Proof.Machine
end

