-- ==== Sys2Proof/Laws/Memory.lean ====
section
/-! SUPPORT. The configuration memory: every write keeps the canonical form, a read after a write gives what was written, other addresses read as before. -/

namespace Sys2Proof.Machine

theorem Memory.wfFrom_mono {m : List Host.Cell} {a b : Nat} (hab : a ≤ b) (h : Memory.wfFrom b m = true) : Memory.wfFrom a m = true := by
  cases m with
  | nil => rfl
  | cons c rest =>
    obtain ⟨k, v⟩ := c
    simp only [Memory.wfFrom, Bool.and_eq_true, decide_eq_true_eq] at h ⊢
    exact ⟨⟨Nat.le_trans hab h.1.1, h.1.2⟩, h.2⟩

/-- A write keeps the canonical form. -/
theorem Memory.wfFrom_write {m : List Host.Cell} {low a : Nat} {v : Byte} (hl : low ≤ a) (h : Memory.wfFrom low m = true) :
    Memory.wfFrom low (Memory.write m a v) = true := by
  induction m generalizing low with
  | nil =>
    unfold Memory.write
    split
    · rfl
    · simp_all [Memory.wfFrom]
  | cons c rest ih =>
    obtain ⟨k, w⟩ := c
    have hk := h
    simp only [Memory.wfFrom, Bool.and_eq_true, decide_eq_true_eq] at hk
    unfold Memory.write
    split
    · rename_i hlt
      split
      · exact h
      · simp only [Memory.wfFrom, Bool.and_eq_true, decide_eq_true_eq]
        exact ⟨⟨hl, by simp_all⟩, ⟨by omega, hk.1.2⟩, hk.2⟩
    · rename_i hnlt
      split
      · rename_i he
        split
        · exact Memory.wfFrom_mono (by omega) hk.2
        · simp only [Memory.wfFrom, Bool.and_eq_true, decide_eq_true_eq]
          refine ⟨⟨hl, by simp_all⟩, ?_⟩
          rw [he]
          exact hk.2
      · rename_i hne
        simp only [Memory.wfFrom, Bool.and_eq_true, decide_eq_true_eq]
        exact ⟨hk.1, ih (by omega) hk.2⟩

theorem Memory.wf_write {m : List Host.Cell} {a : Nat} {v : Byte} (h : Memory.wf m = true) : Memory.wf (Memory.write m a v) = true :=
  Memory.wfFrom_write (Nat.zero_le a) h

theorem Memory.wf_reset : Memory.wf State.reset.mem = true := rfl

/-- Below the lowest address of a canonical memory everything reads as the blank byte. -/
theorem Memory.read_below {m : List Host.Cell} {low a : Nat} (h : Memory.wfFrom low m = true) (ha : a < low) :
    Memory.read m a = Memory.blankByte := by
  induction m generalizing low with
  | nil => rfl
  | cons c rest ih =>
    obtain ⟨k, w⟩ := c
    simp only [Memory.wfFrom, Bool.and_eq_true, decide_eq_true_eq] at h
    unfold Memory.read
    rw [if_neg (by omega)]
    exact ih h.2 (by omega)

/-- A read of the address just written gives the byte written. -/
theorem Memory.read_write_same {m : List Host.Cell} {low a : Nat} {v : Byte} (h : Memory.wfFrom low m = true) :
    Memory.read (Memory.write m a v) a = v := by
  induction m generalizing low with
  | nil =>
    unfold Memory.write
    split <;> simp_all [Memory.read]
  | cons c rest ih =>
    obtain ⟨k, w⟩ := c
    simp only [Memory.wfFrom, Bool.and_eq_true, decide_eq_true_eq] at h
    unfold Memory.write
    split
    · split
      · rename_i hlt hv
        unfold Memory.read
        rw [if_neg (by omega), Memory.read_below h.2 (by omega), hv]
      · simp [Memory.read]
    · split
      · rename_i he
        split
        · rename_i hv
          rw [Memory.read_below h.2 (by omega), hv]
        · simp [Memory.read]
      · rename_i hne
        unfold Memory.read
        rw [if_neg hne]
        exact ih h.2

/-- A read of any other address gives what it gave before. -/
theorem Memory.read_write_other {m : List Host.Cell} {a b : Nat} {v : Byte} (hab : b ≠ a) :
    Memory.read (Memory.write m a v) b = Memory.read m b := by
  induction m with
  | nil =>
    unfold Memory.write
    split <;> simp_all [Memory.read]
  | cons c rest ih =>
    obtain ⟨k, w⟩ := c
    unfold Memory.write
    split
    · split
      · rfl
      · simp [Memory.read, hab]
    · split
      · rename_i he
        split
        · simp [Memory.read, ← he, hab]
        · simp [Memory.read, ← he, hab]
      · simp [Memory.read, ih]

end Sys2Proof.Machine
end

