-- ==== Sys2Proof/Laws/Sequence.lean ====
section
/-! SUPPORT. What the sequencer and the barrier drive come to rest at: a drive found twice at one time is found once, a walk leaves nothing to judge, and
which list a run walks. -/

namespace Sys2Proof.Machine

/-! ### The barrier drive (R153 to R157) -/

section
variable (now : Time) (ph : Phase) (b : BarrierUnit)

@[simp] theorem BarrierUnit.wantsLower_stopLower : (b.stopLower now).wantsLower = b.wantsLower := rfl
@[simp] theorem BarrierUnit.wantsLower_stopRaise : (b.stopRaise now).wantsLower = b.wantsLower := rfl
@[simp] theorem BarrierUnit.wantsRaise_stopLower : (b.stopLower now).wantsRaise ph = b.wantsRaise ph := rfl
@[simp] theorem BarrierUnit.wantsRaise_stopRaise : (b.stopRaise now).wantsRaise ph = b.wantsRaise ph := rfl
@[simp] theorem BarrierUnit.stopLower_lowerOn : (b.stopLower now).lowerOn = false := rfl
@[simp] theorem BarrierUnit.stopLower_raiseOn : (b.stopLower now).raiseOn = b.raiseOn := rfl
@[simp] theorem BarrierUnit.stopRaise_lowerOn : (b.stopRaise now).lowerOn = b.lowerOn := rfl
@[simp] theorem BarrierUnit.stopRaise_raiseOn : (b.stopRaise now).raiseOn = false := rfl
@[simp] theorem BarrierUnit.wantsLower_beginLower : (b.beginLower now).wantsLower = b.wantsLower := by unfold beginLower; split <;> rfl
@[simp] theorem BarrierUnit.wantsLower_beginRaise : (b.beginRaise now).wantsLower = b.wantsLower := by unfold beginRaise; split <;> rfl
@[simp] theorem BarrierUnit.wantsRaise_beginLower : (b.beginLower now).wantsRaise ph = b.wantsRaise ph := by unfold beginLower; split <;> rfl
@[simp] theorem BarrierUnit.wantsRaise_beginRaise : (b.beginRaise now).wantsRaise ph = b.wantsRaise ph := by unfold beginRaise; split <;> rfl

/-- LOWER and RAISE are never wanted together (R153). -/
theorem BarrierUnit.not_wantsRaise (h : b.wantsLower = true) : b.wantsRaise ph = false := by
  obtain ⟨⟨h, -⟩, -⟩ : (b.command = .lower ∧ _) ∧ _ := by simpa [wantsLower] using h
  simp [wantsRaise, h]

/-- A drive at rest at a time and a phase (R153, R154): what is driven is wanted, and what is wanted is driven or may not begin. -/
def BarrierUnit.AtRest : Prop :=
  (b.lowerOn = true → b.wantsLower = true) ∧ (b.raiseOn = true → b.wantsRaise ph = true)
    ∧ (b.wantsLower = true → (!b.lowerOn && !b.raiseOn && 200 ≤ (now - b.raiseStop).toNat : Bool) = false)
    ∧ (b.wantsRaise ph = true → (!b.raiseOn && !b.lowerOn && 200 ≤ (now - b.lowerStop).toNat : Bool) = false)

/-- A drive at rest stays as it stands. -/
theorem BarrierUnit.AtRest.findDrive_eq {now : Time} {ph : Phase} {b : BarrierUnit} (h : b.AtRest now ph) : b.findDrive now ph = b := by
  obtain ⟨hl, hr, bl, br⟩ := h
  have e1 : (b.lowerOn && !b.wantsLower) = false := by cases h : b.lowerOn <;> simp_all
  have e2 : (b.raiseOn && !b.wantsRaise ph) = false := by cases h : b.raiseOn <;> simp_all
  have e3 : b.wantsLower = true → b.beginLower now = b := fun h => if_neg (by simp only [bl h, Bool.false_eq_true, not_false_eq_true])
  have e4 : b.wantsRaise ph = true → b.beginRaise now = b := fun h => if_neg (by simp only [br h, Bool.false_eq_true, not_false_eq_true])
  simp only [findDrive, e1, e2, Bool.false_eq_true, ↓reduceIte]
  by_cases h1 : b.wantsLower = true
  · simp [h1, e3 h1, not_wantsRaise ph b h1]
  · by_cases h2 : b.wantsRaise ph = true <;> simp [h1, h2, e4]

/-- The drive found is at rest. -/
theorem BarrierUnit.findDrive_atRest : (b.findDrive now ph).AtRest now ph := by
  obtain ⟨y, hyl, hyr, ey⟩ : ∃ y : BarrierUnit,
      (y.lowerOn = true → y.wantsLower = true) ∧ (y.raiseOn = true → y.wantsRaise ph = true)
      ∧ b.findDrive now ph = (let z := if y.wantsLower then y.beginLower now else y
                              if z.wantsRaise ph then z.beginRaise now else z) := by
    refine ⟨_, ?_, ?_, rfl⟩
    · cases h1 : b.lowerOn <;> cases h2 : b.wantsLower <;> (repeat' split) <;> simp_all
    · cases h1 : b.raiseOn <;> cases h2 : b.wantsRaise ph <;> (repeat' split) <;> simp_all
  rw [ey]
  by_cases h1 : y.wantsLower = true
  · have h2 := not_wantsRaise ph y h1
    have h3 : y.raiseOn = false := by cases h : y.raiseOn <;> simp_all
    simp only [h1, h2, ↓reduceIte, wantsRaise_beginLower, Bool.false_eq_true]
    refine ⟨fun _ => by simp [h1], fun h => ?_, fun _ => ?_, fun h => by simp [h2] at h⟩
    · rw [show (y.beginLower now).raiseOn = y.raiseOn by unfold beginLower; split <;> rfl, h3] at h; cases h
    · by_cases h : (!y.lowerOn && !y.raiseOn && 200 ≤ (now - y.raiseStop).toNat : Bool) = true
      · rw [show y.beginLower now = { y with lowerOn := true, travelStart := some now, stalled := false } from if_pos h]; rfl
      · rw [show y.beginLower now = y from if_neg h]; exact Bool.eq_false_iff.mpr h
  · have h3 : y.lowerOn = false := by cases h : y.lowerOn <;> simp_all
    by_cases h2 : y.wantsRaise ph = true
    · simp only [h1, h2, ↓reduceIte, Bool.false_eq_true]
      refine ⟨fun h => ?_, fun _ => by simp [h2], fun h => by simp [h1] at h, fun _ => ?_⟩
      · rw [show (y.beginRaise now).lowerOn = y.lowerOn by unfold beginRaise; split <;> rfl, h3] at h; cases h
      · by_cases h : (!y.raiseOn && !y.lowerOn && 200 ≤ (now - y.lowerStop).toNat : Bool) = true
        · rw [show y.beginRaise now = { y with raiseOn := true, travelStart := some now, stalled := false } from if_pos h]; rfl
        · rw [show y.beginRaise now = y from if_neg h]; exact Bool.eq_false_iff.mpr h
    · simp only [h1, h2, ↓reduceIte, Bool.false_eq_true]
      exact ⟨hyl, hyr, fun h => absurd h h1, fun h => absurd h h2⟩

end

/-- What `barrierSettle` leaves in the barrier where it serves one. -/
theorem barrierSettle_barrier {s : State} (h : barrierServed s = true) :
    (barrierSettle s).1.barrier = { s.barrier.findDrive s.clock.ms s.phase.phase with
      state := (s.barrier.findDrive s.clock.ms s.phase.phase).stateNow } := by
  simp only [barrierSettle, h, ↓reduceIte]
  split
  · rfl
  · dsimp only
    split
    · exact (clearCond_kept _ _) .barrier (by decide)
    · rfl

/-- A barrier settled again at the same time and phase changes nothing and hands on nothing. -/
theorem barrierSettle_again (s : State) : barrierSettle (barrierSettle s).1 = ((barrierSettle s).1, []) := by
  by_cases h : barrierServed s = true
  · have k := barrierSettle_kept s
    have hs : barrierServed (barrierSettle s).1 = true := by
      rw [← h]
      simp only [barrierServed, isPost, ownRoles]
      rw [show (barrierSettle s).1.cfg = s.cfg from k .cfg (by decide), show (barrierSettle s).1.join = s.join from k .join (by decide)]
    have hf : (barrierSettle s).1.barrier.findDrive (barrierSettle s).1.clock.ms (barrierSettle s).1.phase.phase = (barrierSettle s).1.barrier := by
      rw [show (barrierSettle s).1.clock = s.clock from k .clock (by decide), show (barrierSettle s).1.phase = s.phase from k .phase (by decide),
        barrierSettle_barrier h]
      exact BarrierUnit.AtRest.findDrive_eq (BarrierUnit.findDrive_atRest s.clock.ms s.phase.phase s.barrier)
    have hn : (barrierSettle s).1.barrier.stateNow = (barrierSettle s).1.barrier.state := by rw [barrierSettle_barrier h]; rfl
    generalize (barrierSettle s).1 = u at *
    simp [barrierSettle, hs, hf, hn]
  · simp [barrierSettle, h]

/-! ### A walk (R126 to R132) -/

/-- What beginning a step leaves in the sequencer (R128). -/
theorem beginStep_seq (i : Nat) (st : StepRec) (s : State) :
    (beginStep i st s).1.seq = { s.seq with step := some i, stepStart := s.clock.ms, waitStart := none,
                                            lowerReached := s.seq.lowerReached || decide (st.barrier = .lower) } := by
  have lowers (w : Work) (q : SeqUnit) (h : w.1.seq = q) :
      (w.andThen fun s2 => if st.barrier = .lower ∧ !s2.seq.lowerReached then ({ s2 with seq := { s2.seq with lowerReached := true } }, [.evaluate])
        else (s2, [])).1.seq = { q with lowerReached := q.lowerReached || decide (st.barrier = .lower) } := by
    subst h
    simp only [Work.andThen]
    split
    · rename_i hc; simp [hc.1]
    · rename_i hc
      have hl : (w.1.seq.lowerReached || decide (st.barrier = .lower)) = w.1.seq.lowerReached := by cases h : w.1.seq.lowerReached <;> simp_all
      rw [hl]
  exact lowers _ _ (((handField_kept _ _) .seq (by decide)).trans ((applyPattern_kept _ _ _) .seq (by decide)))

/-- What the end of a run leaves in the sequencer (R127). -/
theorem endRun_seq (how : EndHow) (s : State) : (endRun how s).1.seq = s.seq.ended how := by
  cases how
  · exact (clearCond_kept _ _) .seq (by decide)
  · rfl
  · rfl
  · exact (raiseCond_kept _ _) .seq (by decide)

/-- A run that has ended is not in progress. -/
@[simp] theorem SeqUnit.ended_active (how : EndHow) (q : SeqUnit) : (q.ended how).active = false := by cases how <;> rfl

/-- The wait conditions do not read the sequencer (R130). -/
@[simp] theorem waitHolds_seq (q : SeqUnit) (s : State) (f : WaitFor) : waitHolds { s with seq := q } f = waitHolds s f := by cases f <;> rfl

/-- A walk stays in its list. -/
theorem judgeStep_list (fuel : Nat) (s : State) : (judgeStep fuel s).1.seq.list = s.seq.list := by
  induction fuel generalizing s with
  | zero => rfl
  | succ n ih =>
    unfold judgeStep
    repeat' split
    all_goals first
      | rfl
      | (rw [endRun_seq]; rfl)
      | exact (ih _).trans (by rw [beginStep_seq])

/-- START walks the list that it names (R132). -/
theorem seqStart_list (l : ListName) (s : State) (h : s.seq.active = false) : (seqStart l s).1.seq.list = some l := by
  simp only [seqStart, h, Bool.false_eq_true, ↓reduceIte]
  split
  · rfl
  · exact (judgeStep_list _ _).trans (by rw [beginStep_seq])

/-- A sequencer at rest: judging its step finds nothing. -/
def SeqRests (s : State) : Prop := ∀ fuel : Nat, judgeStep fuel s = (s, [])

theorem seqRests_of_inactive {s : State} (h : s.seq.active = false) : SeqRests s := by
  intro fuel; cases fuel <;> simp [judgeStep, h]

/-- A judgement whose fuel reaches the end of the list leaves the sequencer at rest (R129). -/
theorem judgeStep_rests (n : Nat) (seen : List Nat) (i fuel : Nat) (s : State) (ht : (traceList s.cfg.steps n seen i).isSome = true)
    (hi : s.seq.step = some i) (hn : n ≤ fuel) : SeqRests (judgeStep fuel s).1 := by
  induction n generalizing seen i fuel s with
  | zero => simp [traceList] at ht
  | succ n ih =>
    obtain ⟨f, rfl⟩ : ∃ f, fuel = f + 1 := ⟨fuel - 1, by omega⟩
    have ended (how : EndHow) : SeqRests (endRun how s).1 := seqRests_of_inactive (by rw [endRun_seq]; exact SeqUnit.ended_active how _)
    by_cases ha : s.seq.active = true
    · simp only [traceList] at ht
      split at ht
      · simp at ht
      · split at ht
        · simp at ht
        · rename_i st hst
          have hc : currentStep s = some st := by simp [currentStep, hi, hst]
          by_cases hd : dwellRun s st = true
          · by_cases hw : waitHolds s st.waitFor = true
            · by_cases hh : s.seq.state = .halting
              · simpa [judgeStep, ha, hc, hd, hw, hh] using ended .halted
              · cases hx : st.next with
                | none => simpa [judgeStep, ha, hc, hd, hw, hh, hx] using ended .done
                | some j =>
                  simp only [hx] at ht
                  cases hj : s.cfg.steps[j]? with
                  | none =>
                    cases n with
                    | zero => simp [traceList] at ht
                    | succ m => simp [traceList, hj] at ht
                  | some st' =>
                    have hr := ih (seen ++ [i]) j f (beginStep j st' s).1
                      (by rw [show (beginStep j st' s).1.cfg = s.cfg from (beginStep_kept j st' s) .cfg (by decide)]; exact ht)
                      (by rw [beginStep_seq]) (by omega)
                    simpa [judgeStep, ha, hc, hd, hw, hh, hx, hj, Work.andThen] using hr
            · by_cases hs : s.seq.waitStart.isNone = true
              · have hr : SeqRests { s with seq := { s.seq with waitStart := some (later s.seq.stepStart st.dwell) } } := by
                  intro k
                  cases k with
                  | zero => rfl
                  | succ k =>
                    unfold judgeStep
                    rw [if_pos (show SeqUnit.active { s.seq with waitStart := some (later s.seq.stepStart st.dwell) } = true from ha)]
                    simp only [show currentStep { s with seq := { s.seq with waitStart := some (later s.seq.stepStart st.dwell) } } = some st from hc]
                    rw [if_pos (show dwellRun { s with seq := { s.seq with waitStart := some (later s.seq.stepStart st.dwell) } } st = true from hd),
                      if_neg (by rw [waitHolds_seq]; exact hw)]
                    rfl
                simpa [judgeStep, ha, hc, hd, hw, hs] using hr
              · have hr : SeqRests s := by intro k; cases k <;> simp [judgeStep, ha, hc, hd, hw, hs]
                simpa [judgeStep, ha, hc, hd, hw, hs] using hr
          · have hr : SeqRests s := by intro k; cases k <;> simp [judgeStep, ha, hc, hd]
            simpa [judgeStep, ha, hc, hd] using hr
    · have hr : SeqRests s := seqRests_of_inactive (by simpa using ha)
      simpa [judgeStep, ha] using hr

/-- START of a list that can be walked leaves the sequencer at rest (R126, R132). -/
theorem seqStart_rests (l : ListName) (s : State) (h : s.seq.active = false) (ht : (traceList s.cfg.steps 24 [] (headOf s.cfg l)).isSome = true) :
    SeqRests (seqStart l s).1 := by
  simp only [seqStart, h, Bool.false_eq_true, ↓reduceIte]
  split
  · rename_i hx
    simp [traceList, hx] at ht
  · rename_i st hx
    refine judgeStep_rests 24 [] (headOf s.cfg l) walkFuel _ ?_ ?_ (by decide)
    · rw [show (beginStep (headOf s.cfg l) st { s with seq := { s.seq with state := .running, list := some l, lowerReached := false, result := none } }).1.cfg
        = s.cfg from (beginStep_kept _ _ _) .cfg (by decide)]
      exact ht
    · rw [beginStep_seq]

end Sys2Proof.Machine
end

