-- ==== Sys2Proof/Tests/Slice0.lean ====
section
/-! SUPPORT. The model's own tests: ill-formed commands refused, small steps with results worked out from the manual, and for every obligation with
hypotheses a state and operands that meet them, clause by clause. -/

namespace Sys2Proof.Tests

open Sys2Proof Sys2Proof.Machine

/-! ### Well-formedness: each check refuses an ill-formed command -/

theorem test_wf_edge_without_head : (Instr.acceptedEdge 20 0 none none).wellFormed = false := by decide
theorem test_wf_edge_with_head : (Instr.acceptedEdge 20 0 (some 5) none).wellFormed = true := by decide
theorem test_wf_section_six : (Instr.deadlineExpiry 0 6).wellFormed = false ∧ (Instr.standingTestTime 0 6).wellFormed = false := by decide
theorem test_wf_section_five : (Instr.deadlineExpiry 0 5).wellFormed = true := by decide
theorem test_wf_station_sixteen :
    (Instr.peerAgeTimeout 0 16).wellFormed = false ∧ (Instr.agreementToleranceReached 0 16).wellFormed = false := by decide
theorem test_wf_bytes_out_of_order :
    (Instr.ack 0 [{ time := 5#32, byte := 165#8 }, { time := 4#32, byte := 2#8 }]).wellFormed = false
      ∧ (Instr.ack 0 [{ time := 4#32, byte := 165#8 }, { time := 5#32, byte := 2#8 }]).wellFormed = true := by decide
theorem test_wf_interval_too_long : (Instr.showPeers 2147483648).wellFormed = false ∧ (Instr.showPeers 2147483647).wellFormed = true := by decide

/-- The table gives no row bits, so no word spells a command. -/
theorem test_no_word_spells_a_command : decodeTableWord 8 3 = none ∧ decodeTableWord 0 0 = none := by decide

/-! ### A small crossing: station 1 with every role, station 2 a detecting post, one track -/

/-- Station 1's image: DPs 0 and 1 its own, DPs 2 and 3 station 2's; CLOSE 0 to 1, OPEN 2 to 3, FAILED 4 to 5. -/
def image : Image :=
  { crossing := 0x1234#16,
    stations := [{ number := 1, roles := { detect := true, post := true, report := true }, signaller := true },
      { number := 2, roles := { detect := true, post := true, report := false }, signaller := false }],
    tracks := 1,
    dps := [{ owner := 1, slot := 0, nearSecond := true, distance := 1800, spacing := 300 },
      { owner := 1, slot := 1, nearSecond := true, distance := 60, spacing := 300 },
      { owner := 2, slot := 0, nearSecond := true, distance := 60, spacing := 300 },
      { owner := 2, slot := 1, nearSecond := true, distance := 1800, spacing := 300 }],
    dcis := [{ station := 1, out := 0, endB := false, track0 := true, track1 := false }], own := 1, timing := Timing.default,
    headBand := { low := 10, high := 30 }, amberLit := { low := 100, high := 200 }, amberTest := { low := 50, high := 99 },
    red1Lit := { low := 100, high := 200 }, red1Test := { low := 50, high := 99 }, red2Lit := { low := 100, high := 200 },
    red2Test := { low := 50, high := 99 }, dciLit := { low := 100, high := 200 }, dciTest := { low := 50, high := 99 }, startRestoring := false,
    cmpPhase := true, cmpSections := true, cmpHealth := true,
    steps := [{ amber := true, red := .off, barrier := .none, dwell := 3000, waitFor := .none, waitLimit := none, next := some 1 },
      { amber := false, red := .alternate, barrier := .lower, dwell := 0, waitFor := .allDown, waitLimit := some 20000, next := none },
      { amber := false, red := .alternate, barrier := .raise, dwell := 0, waitFor := .allUp, waitLimit := some 20000, next := some 3 },
      { amber := false, red := .off, barrier := .none, dwell := 100, waitFor := .none, waitLimit := none, next := none },
      { amber := false, red := .alternate, barrier := .none, dwell := 8000, waitFor := .none, waitLimit := none, next := some 5 },
      { amber := false, red := .alternate, barrier := .lower, dwell := 0, waitFor := .allDown, waitLimit := some 20000, next := none }],
    closeHead := 0, openHead := 2, failedHead := 4 }

/-- A head with a threshold of 20 that reads CLEAR. -/
def head : Head := { Head.reset with threshold := some 20, levelTaken := true }

/-- An own detection point that is WORKING. -/
def dp (id : Nat) (slot : Slot) : DpUnit :=
  { id := id, slot := slot, nearSecond := true, distance := if id = 0 then 1800 else 60, spacing := 300, first := head, second := head,
    recog := Recog.reset, inn := 5#16, out := 5#16, epoch := 7#8, lastSpeed := 0, history := [], state := .working, supplyCause := false,
    thresholdCause := false, unorderedCause := false, calStart := none, due := false, sweep := none }

/-- A CLEAR section record with baselines. -/
def sect (id : Nat) : Sect :=
  { Sect.start false id with
    state := .clear, baseOuter := some { inn := 5#16, out := 5#16, epoch := 7#8 }, baseInner := some { inn := 5#16, out := 5#16, epoch := 7#8 } }

/-- Station 2 in the peer table. -/
def peer : Peer :=
  { station := 2, roles := { detect := true, post := true, report := false }, state := .live, lastHeard := some 99900#32, lastStatus := some 99900#32,
    age := some 100, epoch := some 7#8, lastSeq := some 3#8, joinShown := none, phase := some .opened,
    post := some { barrier := .up, amber := .ok, red1 := .ok, red2 := .ok, flash := 0 }, dps := [], sections := some [.clear, .clear, .clear],
    conds := [], condCount := 0, seenA := true, seenB := true, stickyPhase := false, stickySections := false, stickyHealth := false,
    mismatchSince := none, tolerancePassed := false }

/-- Station 1 in JOINED and OPEN, 100 s after its reset. -/
def open1 : State :=
  { State.reset with
    clock := { us := 100000000#32, ms := 100000#32, frac := 0 }, powered := true, restartCount := 7#8, digest := 0xABCD#16, cfg := image,
    dps := [dp 0 0, dp 1 1], sections := [sect 0, sect 1, sect 2],
    view := [{ ViewEntry.lost 2 2 with state := .working, latest := some { inn := 5#16, out := 5#16, epoch := 7#8 }, headsClear := true },
      { ViewEntry.lost 3 2 with state := .working, latest := some { inn := 5#16, out := 5#16, epoch := 7#8 }, headsClear := true }],
    line := { LineUnit.reset with
      rxOn := true, a := { LineRec.reset with health := .good, lastValid := 99900#32 }, b := { LineRec.reset with health := .good, lastValid := 99900#32 },
      quietSince := some 99990000#32, gapEnd := some 99991000#32, nextOrd := 40, statusLeft := some 99900#32 },
    join := { JoinUnit.reset with state := .joined, verdicts := [(2, .equal)], firstHailSent := true }, peers := [peer],
    phase := { PhaseUnit.reset with phase := .opened }, seq := { SeqUnit.reset with state := .done, list := some .opn, step := some 3, result := some (.opn, .done) },
    lights := { LightsUnit.reset with coldStart := some 90000#32 }, flash := { FlashUnit.reset with mode := .running 99500#32, leader := some 1 },
    barrier := { BarrierUnit.reset with
      up := { level := some true, run := 0 }, down := { level := some false, run := 0 }, raiseStop := 50000#32, state := .up },
    dci := { DciUnit.reset with out0 := dciBuild image true 0, coldStart := some 90000#32 },
    notices := { NoticeUnit.reset with kept := true }, sig := { SigUnit.reset with started := true, due := some 100500#32, lastEnd := some 99800#32 },
    key := { level := some false, run := 0 } }

/-- The state with the own DP of slot 0 replaced. -/
def withDp (u : DpUnit) : State := { open1 with dps := [u, dp 1 1] }

/-- The field of a next state. -/
def after {α : Type} (o : Host.Outcome State Fault Refusal) (f : State → α) : Option α :=
  match o with
  | .next t => some (f t)
  | .fault _ => none
  | .refused _ => none

/-! ### Witnesses: the block as a machine, laws -/

theorem test_witness_StepTakesTheFrontCommand :
    ({ open1 with pending := [.showPeers 0] } : State).pending = [.showPeers 0] ∧ open1.pending = [] := ⟨rfl, rfl⟩

theorem test_witness_ResetLastsUntilSupplyRestored : State.reset.powered = false ∧ (∀ dt, Instr.showPeers 0 ≠ .powerOnReset dt) ∧ ∀ dt, Instr.showPeers 0 ≠ .supplyRestored dt := by
  refine ⟨rfl, ?_, ?_⟩ <;> intro dt <;> simp

theorem test_witness_EveryCommandTouchesOnlyItsParts : resets (.maintainerReplyEnd 0) open1 = false := by decide

theorem test_witness_ConclusionAndSignalsAreBounded : open1.firstFault = State.reset.firstFault := rfl

/-- The laws hold at the open crossing, and a step leads on from it. -/
theorem test_witness_EveryStepKeepsEachLaw :
    MemLaw open1 ∧ SectionLaw open1 ∧ PhaseLaw open1 ∧ SeqLaw open1 ∧ BarrierLaw open1 ∧ CondLaw open1 ∧ NoticeLaw open1 ∧ QueueLaw open1
      ∧ ∃ t, step { open1 with pending := [.carrierStart 5 .a] } = .next t := by
  refine ⟨rfl, ?_, ?_, ⟨fun _ _ l => by cases l <;> decide, by decide⟩, ?_, ?_, ?_, ?_, _, rfl⟩
  · unfold SectionLaw Sect.Lawful; decide
  · unfold PhaseLaw; decide
  · unfold BarrierLaw; decide
  · unfold CondLaw; decide
  · unfold NoticeLaw; decide
  · refine ⟨by decide, by decide, by decide, by decide, ?_⟩
    intro f h; have h' : (none : Option Flight) = some f := h; cases h'

/-- A reset that finds the station powered and in LOADING, and one that does not. -/
theorem test_witness_PowerOnResetLeavesResetValues_MemoryStaysCanonical :
    ({ State.reset with powered := true } : State).powered = true ∧ State.reset.join.state = .loading ∧ State.reset.powered = false
      ∧ open1.join.state ≠ .loading ∧ resets (.showPeers 0) open1 = false := by decide

/-- A latch set, a filled first-fault record and an image in force, under a command that is none of those that touch them. -/
theorem test_witness_RecordsStayUntilTheirCommand :
    ({ open1 with latches := { Latches.reset with crcSeen := true } } : State).latches.has .crcSeen = true
      ∧ (∃ t, exec (.showPeers 0) { open1 with latches := { Latches.reset with crcSeen := true } } = .next t) ∧ open1.join.state ≠ .loading
      ∧ (∀ dt, Instr.showPeers 0 ≠ .readLatches dt) ∧ (∀ dt, Instr.showPeers 0 ≠ .clearFirstFault dt)
      ∧ ∀ dt, Instr.showPeers 0 ≠ .powerOnReset dt := by
  refine ⟨rfl, ⟨_, rfl⟩, by decide, ?_, ?_, ?_⟩ <;> intro dt <;> simp

/-- A LIVE peer past its age while the record is empty. -/
theorem test_witness_RecordsStayUntilTheirCommand_fill :
    open1.firstFault = none
      ∧ after (exec (.peerAgeTimeout 0 2) { open1 with peers := [{ peer with age := some 5000 }] }) (·.firstFault.isSome) = some true := by decide +kernel

theorem test_witness_IndicatorsProvenOnlyAtAClosedCrossing :
    open1.powered = true ∧ resets (.showPeers 0) open1 = false ∧ (∃ t, exec (.showPeers 0) open1 = .next t) ∧ open1.dci.out0.isSome = true :=
  ⟨rfl, rfl, ⟨_, rfl⟩, by decide⟩

/-! ### Witnesses: detection and calibration -/

/-- A DP whose first head has two differing samples: the next is the third of four. -/
def dpRun (n : Nat) : DpUnit := { dp 0 0 with first := { head with run := n } }

theorem test_witness_SampleMovesThePendingRun :
    (withDp (dpRun 2)).powered = true ∧ dpAt (withDp (dpRun 2)) 0 = some (dpRun 2) ∧ (dpRun 2).filtered .first = true ∧ ((dpRun 2).head .first).threshold = some 20
      ∧ decide (20 < 20) = ((dpRun 2).head .first).covered ∧ decide (19 < 20) ≠ ((dpRun 2).head .first).covered
      ∧ ((dpRun 2).head .first).run + 1 < (withDp (dpRun 2)).cfg.timing.filterLength := by decide

theorem test_witness_AcceptedEdgeFlipsTheLevel :
    (withDp (dpRun 3)).powered = true ∧ dpAt (withDp (dpRun 3)) 0 = some (dpRun 3) ∧ (dpRun 3).filtered .first = true
      ∧ ((dpRun 3).head .first).threshold = some 20 ∧ decide (19 < 20) ≠ ((dpRun 3).head .first).covered
      ∧ (withDp (dpRun 3)).cfg.timing.filterLength ≤ ((dpRun 3).head .first).run + 1 ∧ (dpRun 3).state = .working
      ∧ ((dpRun 3).recog.edge open1.clock.us ((dpRun 3).head .first).runStart .first true false).2 = none
      ∧ ({ dpRun 3 with state := .faulted } : DpUnit).state ≠ .working
      ∧ dpAt (withDp { dpRun 3 with state := .faulted }) 0 = some { dpRun 3 with state := .faulted } := by decide

/-- A DP with both heads one sample short of a cover. -/
def dpPair : DpUnit := { dp 0 0 with first := { head with run := 3 }, second := { head with run := 3 } }

theorem test_witness_UnorderedPairJoinsTheHistory :
    (withDp dpPair).powered = true ∧ dpPair.first.threshold = some 20 ∧ dpPair.second.threshold = some 20
      ∧ open1.cfg.timing.filterLength ≤ dpPair.second.run + 1 ∧ dpAt (withDp dpPair) 0 = some dpPair ∧ dpPair.state = .working ∧ dpPair.filtered .first = true ∧ dpPair.filtered .second = true
      ∧ decide (5 < 20) ≠ dpPair.first.covered ∧ decide (5 < 20) ≠ dpPair.second.covered ∧ dpPair.first.covered = dpPair.second.covered
      ∧ open1.cfg.timing.filterLength ≤ dpPair.first.run + 1 ∧ dpPair.recog.state ≠ .unordered ∧ dpPair.history.length ≤ 3
      ∧ ([] ++ [msAt (advance 0 (withDp dpPair)) 0#32] : List Time).length < 3 := by decide

/-- The same with a history of two, the older one less than 60 s old, or 60 s old. -/
def dpThird (old : Time) : DpUnit :=
  { dpPair with first := { head with run := 3, runStart := 99990000#32 }, history := [old, 99500#32] }

theorem test_witness_UnorderedPairJoinsTheHistory_third :
    dpAt (withDp (dpThird 39991#32)) 0 = some (dpThird 39991#32) ∧ (dpThird 39991#32).history.length ≤ 3 ∧ open1.conds.length ≤ 20
      ∧ msAt (advance 0 (withDp (dpThird 39991#32))) 99990000#32 = 99990#32
      ∧ ([39991#32, 99500#32, 99990#32] : List Time).length = 3 ∧ (99990#32 - 39991#32 : Time).toNat < 60000
      ∧ 60000 ≤ (99990#32 - 39990#32 : Time).toNat := by decide

/-- A DP at the last edge of an inward axle that took 10 ms from head to head. -/
def dpInward : DpUnit :=
  { dp 0 0 with second := { head with covered := true, run := 3 },
                recog := { Recog.reset with state := .a2, firstCover := 99980000#32, delta := some 10000 } }

/-- A DP at the last edge of an outward axle. -/
def dpOutward : DpUnit :=
  { dp 0 0 with first := { head with covered := true, run := 3 },
                recog := { Recog.reset with state := .b1, firstCover := 99980000#32, delta := some 10000 } }

theorem test_witness_CountedAxleRaisesOneCount_InwardAxleSetsTheDeadline :
    (withDp dpInward).powered = true ∧ (withDp dpInward).join.state = .joined ∧ 20 ≤ 20 ∧ dpAt (withDp dpInward) 0 = some dpInward ∧ dpInward.state = .working ∧ dpInward.recog.state = .a2 ∧ dpInward.filtered .second = true
      ∧ (dpInward.head .second).threshold = some 20 ∧ (dpInward.head .second).covered = true
      ∧ open1.cfg.timing.filterLength ≤ (dpInward.head .second).run + 1 ∧ HeadPos.second = dpInward.nearer
      ∧ dpAt (withDp dpOutward) 0 = some dpOutward ∧ dpOutward.recog.state = .b1 ∧ dpOutward.filtered .first = true
      ∧ (dpOutward.head .first).covered = true ∧ HeadPos.first ≠ dpOutward.nearer
      ∧ dpOuter dpInward.id = true ∧ sectAt (withDp dpInward) (crossingSide dpInward.id) = some (sect 0) ∧ (sect 0).kind ≠ .island
      ∧ (sect 0).state = .clear ∧ (sect 0).balance = 0 ∧ (sect 0).strikes = 0 ∧ (sect 0).tag = none ∧ (sect 0).deadline = none
      ∧ (sect 0).held = false ∧ (withDp dpInward).phase.releaseExpired = false := by decide

/-- The same at inner DP 1 in OPEN. -/
def dpLate : DpUnit := { dpInward with id := 1 }

theorem test_witness_CountedAxleRaisesOneCount_late :
    dpAt (withDp dpLate) 0 = some dpLate ∧ dpOuter dpLate.id = false ∧ (withDp dpLate).phase.phase = .opened ∧ (withDp dpLate).conds.length ≤ 20
      ∧ dpLate.recog.state = .a2 ∧ HeadPos.second = dpLate.nearer ∧ dpLate.filtered .second = true := by decide

theorem test_witness_CountedAxleRaisesOneCount_queue : QueueLaw (withDp dpInward) := by
  refine ⟨by decide, by decide, by decide, by decide, ?_⟩
  intro f h; have h' : (none : Option Flight) = some f := h; cases h'

theorem test_witness_RecognitionSpeedAndDelayFollowTheRules :
    0 < 20 ∧ 5980 < 6000 ∧ 5980 % 20 = 0 ∧ 100 * 100000 / 200000 = 50 ∧ 600 * 100000 / 12000 = 5000 ∧ 100 * 100000 / 200001 < 50
      ∧ 10000000 < 10000001 := by decide

/-- A DP with a cover 10 s old, a calibration timer that has run 60 min, and a due sweep. -/
def dpAged : DpUnit := { dp 0 0 with recog := { Recog.reset with state := .a1, firstCover := 90000000#32 } }

def dpTimed : DpUnit := { dp 0 0 with calStart := some (100000#32 - 3600000#32) }

def dpDue : DpUnit := { dp 0 0 with due := true }

theorem test_witness_DpTimersAgeCoversAndStartSweeps :
    (withDp dpAged).powered = true ∧ dpAt (withDp dpDue) 0 = some dpDue ∧ dpAt (withDp dpAged) 0 = some dpAged ∧ dpAged.recog.state ≠ .idle ∧ dpAged.recog.aged = false
      ∧ 10000000 ≤ ((advance 0 (withDp dpAged)).clock.us - dpAged.recog.firstCover).toNat
      ∧ dpAt (withDp dpTimed) 0 = some dpTimed ∧ dpTimed.calStart = some (100000#32 - 3600000#32)
      ∧ (withDp dpTimed).cfg.timing.calInterval * 60000 ≤ ((advance 0 (withDp dpTimed)).clock.ms - (100000#32 - 3600000#32)).toNat
      ∧ dpDue.due = true ∧ dpDue.state = .working ∧ dpDue.recog.state = .idle ∧ boundedBy dpDue.id = [0]
      ∧ sectAt (withDp dpDue) 0 = some (sect 0) ∧ (sect 0).state = .clear := by decide

/-- A DP with two bad supply readings of its first head. -/
def dpBad : DpUnit := { dp 0 0 with first := { head with bad := 2 } }

theorem test_witness_SupplyReadingsFaultTheDp :
    (withDp dpBad).powered = true ∧ dpAt open1 0 = some (dp 0 0) ∧ dpAt (withDp dpBad) 0 = some dpBad ∧ (withDp dpBad).join.state ≠ .calibrating ∧ dpBad.first.supply = .normal ∧ dpBad.second.supply = .normal
      ∧ dpBad.state = .working ∧ dpBad.sweep = none ∧ (dpBad.head .first).bad = 2 ∧ (9 < image.headBand.low ∨ image.headBand.high < 9)
      ∧ (31 < image.headBand.low ∨ image.headBand.high < 31) ∧ image.headBand.low ≤ 10 ∧ 30 ≤ image.headBand.high
      ∧ ((dp 0 0).head .first).bad < 2 ∧ (withDp dpBad).conds.length ≤ 20 := by decide

/-- A FAULTED DP whose first head is OPEN_CIRCUIT with some good readings. -/
def dpHealing (good : Nat) : DpUnit := { dp 0 0 with first := { head with supply := .openCircuit, good := good }, state := .faulted, supplyCause := true }

theorem test_witness_SupplyReadingsFaultTheDp_recovery :
    (withDp (dpHealing 9)).powered = true ∧ open1.join.state ≠ .calibrating ∧ dpAt (withDp (dpHealing 9)) 0 = some (dpHealing 9)
      ∧ dpAt (withDp (dpHealing 8)) 0 = some (dpHealing 8) ∧ ((dpHealing 9).head .first).supply ≠ .normal
      ∧ ((dpHealing 9).head (otherHead .first)).supply = .normal ∧ image.headBand.low ≤ 10 ∧ 10 ≤ image.headBand.high
      ∧ 9 ≤ ((dpHealing 9).head .first).good ∧ ((dpHealing 8).head .first).good < 9 ∧ (dpHealing 9).state = .faulted
      ∧ (dpHealing 9).thresholdCause = false ∧ (dpHealing 9).unorderedCause = false := by decide

/-- A DP under sweep in a window that ends now. -/
def dpSweep (k : SweepKind) (other : Bool) (trial : Nat) : DpUnit :=
  { dp 0 0 with
    state := .calibrating,
    sweep := some { kind := k, onOther := other, trial := trial, windowStart := 99995000#32, waiting := false, abandons := 1, wasDue := false,
                    nearResult := if other then some (.accepted 20) else none } }

/-- A COMMANDED sweep at a head with two bad readings. -/
def dpSweepBad : DpUnit := { dpSweep .commanded false 30 with first := { head with bad := 2 } }

theorem test_witness_SupplyReadingsFaultTheDp_sweep :
    dpAt (withDp dpSweepBad) 0 = some dpSweepBad ∧ dpSweepBad.first.supply = .normal ∧ dpSweepBad.second.supply = .normal
      ∧ dpSweepBad.state = .calibrating ∧ dpSweepBad.sweep.any (fun w => w.kind == .commanded) = true ∧ (dpSweepBad.head .first).bad = 2
      ∧ 9 < image.headBand.low ∧ (withDp dpSweepBad).conds.length ≤ 20 := by decide

theorem test_witness_ProbeWindowsFindTheBoundary_window :
    (withDp (dpSweep .periodic false 62)).powered = true ∧ dpAt (withDp (dpSweep .periodic false 62)) 0 = some (dpSweep .periodic false 62)
      ∧ (dpSweep .periodic false 62).sweep.any (fun w => !w.waiting && w.trial == 62 && w.windowStart == 99995000#32) = true
      ∧ reached (advance 0 open1).clock.us 99995000#32 = true ∧ 5000 ≤ ((advance 0 open1).clock.us - 99995000#32).toNat
      ∧ 62 ≤ 62 ∧ 62 < 63 ∧ open1.join.state ≠ .calibrating := by decide

/-- At margin 6 and a previous threshold of 20, code 38 gives the candidate 32, 12 above it; code 9 gives 3, below 4. -/
theorem test_witness_ProbeWindowsFindTheBoundary :
    (withDp (dpSweep .periodic false 38)).powered = true ∧ (withDp (dpSweep .periodic false 9)).conds.length < 31
      ∧ (dpSweep .periodic false 38).sweep.any (fun w => !w.waiting && !w.onOther && w.trial == 38) = true
      ∧ dpAt (withDp (dpSweep .periodic false 38)) 0 = some (dpSweep .periodic false 38) ∧ 37 < 38 ∧ image.timing.calMargin + 4 ≤ 38
      ∧ 38 ≤ 20 + 12 + image.timing.calMargin ∧ 20 + image.timing.calMargin ≤ 38 + 12 ∧ ((dp 0 0).head (dp 0 0).nearer).threshold = some 20
      ∧ 8 < 9 ∧ 9 < image.timing.calMargin + 4 ∧ dpAt (withDp (dpSweep .periodic false 9)) 0 = some (dpSweep .periodic false 9) := by decide

/-- Codes 39 and 13 give 33 and 7, each 13 off 20; code 63 reads CLEAR; a START sweep that waits, its nearer head COVERED and CLEAR. -/
theorem test_witness_ProbeWindowsFindTheBoundary_refusals :
    dpAt (withDp (dpSweep .periodic false 39)) 0 = some (dpSweep .periodic false 39) ∧ 38 < 39 ∧ image.timing.calMargin + 4 ≤ 39
      ∧ 20 + 12 + image.timing.calMargin < 39 ∧ image.timing.calMargin + 4 ≤ 13 ∧ 13 + 12 < 20 + image.timing.calMargin
      ∧ ((dp 0 0).head (dp 0 0).nearer).threshold = some 20
      ∧ dpAt (withDp (dpSweep .periodic false 63)) 0 = some (dpSweep .periodic false 63) ∧ 63 ≤ 63 := by decide

/-- A START sweep that waits. -/
def dpWaits : DpUnit :=
  { dpSweep .start true 0 with
    sweep := some { kind := .start, onOther := true, trial := 0, windowStart := 99995000#32, waiting := true, abandons := 1, wasDue := false,
                    nearResult := some (.accepted 20) } }

theorem test_witness_ProbeWindowsFindTheBoundary_waiting :
    dpAt (withDp dpWaits) 0 = some dpWaits ∧ dpWaits.sweep.any (fun w => w.waiting && w.kind == .start) = true
      ∧ (dpWaits.head dpWaits.nearer).threshold = some 20 ∧ 19 < 20 ∧ 20 ≤ 20 := by decide

/-- At margin 6, code 14 gives the candidate 8, 12 below the previous threshold. -/
theorem test_witness_SweepEndReturnsTheDpToWorking :
    (withDp (dpSweep .commanded true 14)).powered = true ∧ dpAt (withDp (dpSweep .commanded true 14)) 0 = some (dpSweep .commanded true 14)
      ∧ (dpSweep .commanded true 14).sweep.any (fun w => w.kind == .commanded && !w.waiting && w.onOther && w.trial == 14) = true
      ∧ (withDp (dpSweep .commanded true 14)).join.state ≠ .calibrating ∧ 13 < 14 ∧ 8 + image.timing.calMargin = 14 ∧ 4 ≤ 8
      ∧ ((dpSweep .commanded true 14).head (otherHead (dp 0 0).nearer)).threshold = some 20 ∧ 8 ≤ 20 + 12 ∧ 20 ≤ 8 + 12
      ∧ ((dpSweep .commanded true 14).head (dp 0 0).nearer).threshold.isSome = true ∧ (dpSweep .commanded true 14).state = .calibrating
      ∧ (dpSweep .commanded true 14).supplyCause = false ∧ (dpSweep .commanded true 14).unorderedCause = false ∧ image.timing.calInterval ≠ 0
      ∧ reached (advance 0 open1).clock.us 99995000#32 = true ∧ 5000 ≤ ((advance 0 open1).clock.us - 99995000#32).toNat := by decide

/-- The last START sweep of a station in CALIBRATING, at margin 6 with the boundary 14. -/
def startEnd : State := { open1 with dps := [dpSweep .start true 14], join := { JoinUnit.reset with state := .calibrating }, phase := PhaseUnit.reset }

theorem test_witness_SweepEndReturnsTheDpToWorking_start :
    startEnd.powered = true ∧ dpAt startEnd 0 = some (dpSweep .start true 14) ∧ startEnd.dps = [dpSweep .start true 14]
      ∧ startEnd.join.state = .calibrating ∧ (dpSweep .start true 14).sweep.any (fun w => w.kind == .start && !w.waiting && w.onOther) = true
      ∧ 8 + image.timing.calMargin = 14 ∧ ((dpSweep .start true 14).head (otherHead (dp 0 0).nearer)).threshold = some 20
      ∧ ((dpSweep .start true 14).head (dp 0 0).nearer).threshold = some 20 ∧ (dpSweep .start true 14).supplyCause = false := by decide

theorem test_witness_WatchedHeadAbandonsTheSweep :
    (withDp (dpSweep .periodic false 30)).powered = true ∧ dpAt (withDp (dpSweep .periodic false 30)) 0 = some (dpSweep .periodic false 30)
      ∧ (dpSweep .periodic false 30).state = .calibrating ∧ (dpSweep .periodic false 30).supplyCause = false
      ∧ (dpSweep .periodic false 30).unorderedCause = false ∧ (dpSweep .periodic false 30).sweep.any (fun w => !w.waiting) = true
      ∧ ((dpSweep .periodic false 30).head (otherHead (dp 0 0).nearer)).threshold = some 20 ∧ 19 < 20
      ∧ (dpSweep .periodic false 30).thresholdCause = false ∧ dpAt (withDp (dpSweep .start true 30)) 0 = some (dpSweep .start true 30)
      ∧ ((dpSweep .start true 30).head (dp 0 0).nearer).threshold = some 20 ∧ (dpSweep .start true 30).sweep.any (fun w => w.abandons < 2) = true := by decide

/-! ### Witnesses: sections, phase, sequencer -/

/-- The four ways of a count at a record: past the upper bound, below 0, between, and to 0. -/
theorem test_witness_CountsMoveTheBalance :
    (sect 0).state = .clear ∧ ({ sect 0 with balance := 4095, state := .occupied } : Sect).state = .occupied ∧ 4095 < 4095 + 1 + 0
      ∧ 0 + 1 + 0 ≤ 4095 ∧ 0 + 1 + 0 < 2 ∧ 4094 + 1 + 0 ≤ 4095 ∧ 1 < 4094 + 1 + 0 ∧ 1 = 0 + 1 + 0 := by decide

/-- A RESTORING record of balance 1 after three sweep axles, and UNKNOWN ones. -/
def restoringSect : Sect := { sect 0 with state := .restoring, balance := 1, sweepAxles := 3 }

def unknownSect (u : SectState) : Sect := { restoringSect with state := .unknown, underlying := some u, awaited := [2] }

theorem test_witness_CountsMoveTheBalance_restoring :
    restoringSect.state = .restoring ∧ 1 + 0 + 1 ≤ 4095 ∧ 2 ≤ 1 + 0 + 1 ∧ 4 ≤ restoringSect.sweepAxles + 0 + 1 ∧ restoringSect.sweepAxles + 0 + 0 < 4
      ∧ 1 + 0 + 0 < 2 ∧ 4095 < 1 + 4094 + 1 ∧ (unknownSect .restoring).underlying = some .restoring ∧ (unknownSect .clear).underlying.isSome = true
      ∧ (unknownSect .occupied).underlying = some .occupied ∧ ({ sect 0 with state := .disturbed } : Sect).state = .disturbed
      ∧ (restoringSect.count 4 true { far := 0, near := 1, outs := 2 }).balance = 0 := by decide

/-- Frames of DP 0 at a record without a baseline, of another epoch, 1001 axles on and 1000 axles on; the last awaited owner. -/
theorem test_witness_CountsMoveTheBalance_frames :
    ({ sect 0 with baseOuter := none } : Sect).base 0 = none ∧ (sect 0).base 0 = some { inn := 5#16, out := 5#16, epoch := 7#8 }
      ∧ (7#8 : Byte) ≠ 8#8 ∧ 1000 < (1006#16 - 5#16 : Half).toNat ∧ ¬ 1000 < (1005#16 - 5#16 : Half).toNat
      ∧ (∀ x ∈ (unknownSect .occupied).awaited, x = 2) ∧ (unknownSect .occupied).state = .unknown
      ∧ (({ unknownSect .occupied with tag := some .far } : Sect).returnOwner 100000#32 2).approaching = true := by decide

/-- An approaching section with a deadline. -/
def approach (d : Time) : Sect := { sect 0 with state := .occupied, tag := some .far, balance := 1, deadline := some d, strikes := 1 }

theorem test_witness_DeadlineExpiryClosesTheCrossing :
    open1.powered = true ∧ open1.phase.phase = .opened ∧ (approach 100000#32).deadline = some 100000#32
      ∧ failureDemand { open1 with sections := [approach 100000#32, sect 1, sect 2] } = false
      ∧ sectAt { open1 with sections := [approach 100000#32, sect 1, sect 2] } 0 = some (approach 100000#32)
      ∧ (approach 100000#32).approaching = true ∧ (approach 100000#32).held = false
      ∧ reached (advance 0 open1).clock.ms 100000#32 = true := by decide

/-- OPENING just begun, OPEN's run RAISING not yet away from DOWN, section 0 approaching at its deadline. -/
def opening1 : State :=
  { open1 with
    sections := [approach 100000#32, sect 1, sect 2], phase := { PhaseUnit.reset with phase := .opening },
    seq := { SeqUnit.reset with state := .running, list := some .opn, step := some 2, stepStart := 100000#32 },
    peers := [{ peer with post := some { barrier := .down, amber := .ok, red1 := .ok, red2 := .ok, flash := 0 } }],
    barrier := { open1.barrier with
      up := { level := some false, run := 0 }, down := { level := some true, run := 0 }, command := .raise, raiseOn := true, state := .raising } }

/-- The law of the sequencer's clause holds of it, and the crossing closes at once with both posts DOWN. -/
theorem test_witness_DeadlineExpiryClosesTheCrossing_closed :
    SeqLaw opening1 ∧ opening1.powered = true ∧ opening1.phase.phase = .opening ∧ failureDemand opening1 = false
      ∧ sectAt opening1 0 = some (approach 100000#32) ∧ reached (advance 0 opening1).clock.ms 100000#32 = true :=
  ⟨⟨fun _ _ l => by cases l <;> decide, by decide⟩, by decide⟩

theorem test_deadline_closes_at_once :
    after (exec (.deadlineExpiry 0 0) opening1) (fun t => (t.phase.phase, allDown t, t.seq.list)) = some (.closed, true, some .close) := by decide +kernel

/-- CLOSED with one standing train: its deadline lies the target warning time of 30 s in the past. -/
def closed1 : State :=
  { open1 with
    sections := [approach 70000#32, sect 1, sect 2], phase := { PhaseUnit.reset with phase := .closed, releaseStart := some (100000#32 - 180000#32) },
    barrier := { open1.barrier with
      up := { level := some false, run := 0 }, down := { level := some true, run := 0 }, command := .lower, state := .down } }

theorem test_witness_StandingTrainsAreReleased :
    closed1.powered = true ∧ closed1.phase.releaseStart = some (100000#32 - 180000#32) ∧ closed1.phase.phase = .closed ∧ failureDemand closed1 = false ∧ islandsClear closed1 = true
      ∧ closed1.cfg.timing.maxClosed * 1000 ≤ ((advance 0 closed1).clock.ms - (100000#32 - 180000#32)).toNat
      ∧ (∃ r ∈ closed1.sections, r.demands (advance 0 closed1).clock.ms = true)
      ∧ (∀ r ∈ closed1.sections, r.demands (advance 0 closed1).clock.ms = true →
          r.standing (advance 0 closed1).clock.ms closed1.cfg.timing.warningTime = true)
      ∧ (closed1.sections.map (·.id)).Nodup ∧ closed1.sections.length ≤ 6 ∧ closed1.conds.length ≤ 20 := by decide

/-- The same with the release timer's mark set and the standing-test time of section 0 reached. -/
def closed2 : State :=
  { closed1 with phase := { PhaseUnit.reset with phase := .closed, releaseExpired := true, standing := [(0, 100000#32)] } }

theorem test_witness_StandingTrainsAreReleased_standing :
    closed2.powered = true ∧ closed2.phase.phase = .closed ∧ closed2.phase.releaseExpired = true ∧ (0, 100000#32) ∈ closed2.phase.standing ∧ reached (advance 0 closed2).clock.ms 100000#32 = true
      ∧ failureDemand closed2 = false ∧ islandsClear closed2 = true := by decide

/-- A run of a list at one of its steps. -/
def running (l : ListName) (i : Nat) (st : SeqState) (start : Time) (wait : Option Time) : State :=
  { open1 with seq := { SeqUnit.reset with state := st, list := some l, step := some i, stepStart := start, waitStart := wait } }

/-- CLOSE's first step at the end of its dwell, its second with its wait condition not yet holding, OPEN's last step RUNNING and HALTING. -/
theorem test_witness_RunsEndAtTheirDwellsAndLimits :
    (running .close 0 .running 97000#32 none).powered = true ∧ (running .close 0 .running 97000#32 none).seq.step = some 0
      ∧ (running .close 0 .running 97000#32 none).seq.list = some .close ∧ (running .close 0 .running 97000#32 none).seq.waitStart = none
      ∧ image.steps[0]?.any (fun st => st.dwell == 3000 && st.waitFor == .none && st.next == some 1) = true
      ∧ 3000 ≤ ((advance 0 (running .close 0 .running 97000#32 none)).clock.ms - 97000#32).toNat
      ∧ image.steps[1]?.any (fun st => st.dwell == 0 && st.waitFor == .allDown && st.waitLimit == some 20000) = true
      ∧ waitHolds (advance 0 (running .close 1 .running 100000#32 none)) .allDown = false
      ∧ image.steps[2]?.any (fun st => st.waitFor == .allUp && st.next == some 3) = true
      ∧ image.steps[3]?.any (fun st => st.barrier == .none && st.dwell == 100 && st.waitFor == .none && st.next.isNone) = true
      ∧ waitHolds (advance 0 (running .opn 2 .running 100000#32 none)) .allUp = true
      ∧ 100 ≤ ((advance 0 (running .opn 3 .halting 99900#32 none)).clock.ms - 99900#32).toNat
      ∧ waitHolds (advance 0 (running .opn 3 .halting 99900#32 none)) .none = true := by decide

theorem test_witness_RunsEndAtTheirDwellsAndLimits_limit :
    (running .close 1 .halting 80000#32 (some 80000#32)).powered = true ∧ (running .close 1 .halting 80000#32 (some 80000#32)).seq.state = .halting
      ∧ (running .close 1 .halting 80000#32 (some 80000#32)).seq.step = some 1 ∧ image.steps[1]?.any (fun st => st.waitLimit == some 20000) = true
      ∧ (running .close 1 .halting 80000#32 (some 80000#32)).seq.waitStart = some 80000#32
      ∧ (running .close 1 .halting 80000#32 (some 80000#32)).seq.list = some .close ∧ 20000 ≤ ((advance 0 open1).clock.ms - 80000#32).toNat
      ∧ open1.conds.length < 31 := by decide

/-- An image whose step 1 lowers with a dwell, and whose step 0 leads over a step without dwell and wait to another. -/
def stepImage (f : BarrierField) (d : Nat) : Image :=
  { image with steps := [{ amber := true, red := .off, barrier := .none, dwell := 3000, waitFor := .none, waitLimit := none, next := some 1 },
    { amber := false, red := .alternate, barrier := f, dwell := d, waitFor := .none, waitLimit := none, next := some 2 },
    { amber := false, red := .alternate, barrier := .none, dwell := 100, waitFor := .none, waitLimit := none, next := none }] }

theorem test_witness_RunsEndAtTheirDwellsAndLimits_nextSteps :
    (stepImage .lower 5000).steps[1]?.any (fun st => st.barrier == .lower && decide (0 < st.dwell)) = true
      ∧ (stepImage .none 0).steps[1]?.any (fun st => st.barrier == .none && st.dwell == 0 && st.waitFor == .none && st.next == some 2) = true
      ∧ (stepImage .none 0).steps[2]?.any (fun st => st.barrier == .none && decide (0 < st.dwell)) = true
      ∧ (stepImage .none 0).steps[0]?.any (fun st => st.next == some 1 && st.dwell == 3000) = true
      ∧ ({ running .close 0 .running 97000#32 none with cfg := stepImage .lower 5000 } : State).seq.lowerReached = false := by decide

/-- The requests: the head step of CLOSE, runs of each kind, and the phases that ask for a list. -/
theorem test_witness_RunsEndAtTheirDwellsAndLimits_requests :
    (running .close 0 .halting 97000#32 none).seq.state = .halting ∧ open1.seq.state ≠ .running ∧ open1.seq.state ≠ .halting
      ∧ open1.cfg.steps[headOf open1.cfg .close]?.any (fun st => decide (0 < st.dwell)) = true
      ∧ open1.cfg.steps[headOf open1.cfg .failed]?.any (fun st => decide (0 < st.dwell)) = true ∧ isPost open1 = true
      ∧ (running .opn 2 .running 97000#32 none).seq.list ≠ some .close ∧ (running .close 1 .running 97000#32 none).seq.list = some .close
      ∧ ({ running .close 1 .halting 97000#32 none with phase := { PhaseUnit.reset with phase := .closing } } : State).phase.phase = .closing
      ∧ (stepImage .none 0).steps[headOf (stepImage .none 0) .opn]?.any (fun st => decide (0 < st.dwell)) = true := by decide

/-! ### Witnesses: lights, indicators, barrier, inputs -/

/-- A cycle that ends now, and one in its first half at the half point. -/
theorem test_witness_FlashCycleFollowsItsBoundaries :
    open1.powered = true ∧ ({ open1 with flash := { FlashUnit.reset with mode := .running 99000#32, corr := some 41 } } : State).flash.mode = .running 99000#32
      ∧ image.timing.flashCycle ≤ ((advance 0 open1).clock.ms - 99000#32).toNat ∧ open1.flash.mode = .running 99500#32
      ∧ open1.flash.second = false ∧ image.timing.flashCycle / 2 ≤ ((advance 0 open1).clock.ms - 99500#32).toNat
      ∧ reached (advance 0 open1).clock.ms 100000#32 = true ∧ isPost open1 = true := by decide

/-- AMBER lit since 100 ms, and RED dark under a test pulse of 15 ms, then 20 ms. -/
def amberLit : State := { open1 with lights := { open1.lights with amber := true, a0 := { AspectRec.reset with driven := true, litStart := some 99900#32 } } }

theorem test_witness_LampResultsProveTheStrings :
    amberLit.powered = true ∧ isPost amberLit = true ∧ (amberLit.lights.aspect .amber).driven = true ∧ (amberLit.lights.aspect .amber).litStart = some 99900#32
      ∧ 100 ≤ ((advance 0 amberLit).clock.ms - 99900#32).toNat ∧ amberLit.conds.length < 31
      ∧ hasCond amberLit (condOf .aspectDegraded amberLit.cfg.own (aspectItem .amber)) = decide ((amberLit.lights.aspect .amber).state = .degraded)
      ∧ hasCond amberLit (condOf .aspectFailed amberLit.cfg.own (aspectItem .amber)) = decide ((amberLit.lights.aspect .amber).state = .failed) := by
  decide

theorem test_witness_LampResultsProveTheStrings_strings :
    (LampString.reset).out = false ∧ ({ LampString.reset with failed := 2 } : LampString).failed = 2
      ∧ ({ LampString.reset with out := true, good := 2 } : LampString).out = true := by decide

theorem test_witness_ColdTestProvesTheDarkAspects :
    open1.powered = true ∧ isPost open1 = true ∧ ({ open1 with lights := { open1.lights with coldStart := some 70000#32 } } : State).lights.coldStart = some 70000#32
      ∧ 30000 ≤ ((advance 0 open1).clock.ms - 70000#32).toNat ∧ 15 ≤ ((advance 0 open1).clock.ms - 99985#32).toNat
      ∧ 20 ≤ ((advance 0 open1).clock.ms - 99980#32).toNat ∧ isReport open1 = true := by decide

/-- An output driven since 100 ms. -/
def provenOut : DciOut := { sections := [0], proven := true, driven := true, litStart := some 99900#32, lamp := LampString.reset }

/-- The indicator dark, as the image assigns it. -/
def darkOut : DciOut := { sections := [0], proven := false, driven := false, litStart := none, lamp := LampString.reset }

/-- A pulse of the indicator, begun 20 ms ago; its result, where it has been sampled, is a failed one. -/
def dciPulse (sampled : Bool) : DciPulse := { start := 99980#32, on0 := true, on1 := false, sampled := sampled, good0 := false, good1 := false }

/-- The station with that pulse. -/
def pulsing (sampled : Bool) : State := { open1 with dci := { open1.dci with pulse := some (dciPulse sampled) } }

theorem test_witness_IndicatorStringsAreProved :
    open1.powered = true ∧ ({ open1 with dci := { open1.dci with out0 := some provenOut } } : State).dci.out0 = some provenOut
      ∧ provenOut.driven = true ∧ provenOut.litStart = some 99900#32 ∧ 100 ≤ ((advance 0 open1).clock.ms - 99900#32).toNat
      ∧ isReport open1 = true ∧ ({ open1 with dci := { open1.dci with coldStart := some 70000#32 } } : State).dci.coldStart = some 70000#32
      ∧ 30000 ≤ ((advance 0 open1).clock.ms - 70000#32).toNat ∧ open1.dci.out0 = some darkOut ∧ darkOut.proven = false
      ∧ dciProven open1 darkOut = false ∧ open1.conds.length < 30 ∧ hasCond open1 (condOf .dciFailed 1 0) = darkOut.lamp.out
      ∧ open1.dci.out1 = none ∧ (pulsing false).dci.pulse = some (dciPulse false) ∧ (dciPulse false).on0 = true
      ∧ 15 ≤ ((advance 0 open1).clock.ms - 99985#32).toNat ∧ 20 ≤ ((advance 0 open1).clock.ms - 99980#32).toNat := by decide

/-- LOWER driven with DOWN one sample short of made, and UP open. -/
def lowering (down : Nat) : State :=
  { open1 with barrier := { open1.barrier with
      up := { level := some false, run := 0 }, down := { level := some false, run := down }, command := .lower, lowerOn := true,
      travelStart := some 90000#32, state := .lowering } }

theorem test_witness_InputFiltersFollowTheSamples :
    open1.powered = true ∧ barrierServed open1 = true ∧ (open1.barrier.contact .down).level = some false ∧ (open1.barrier.contact .down).run + 1 < image.timing.filterLength
      ∧ open1.key.level = some false ∧ open1.key.run + 1 < image.timing.filterLength ∧ image.timing.filterLength ≤ 3 + 1
      ∧ ({ open1 with key := InputFilter.reset } : State).key.level = none ∧ barrierServed (lowering 3) = true
      ∧ (lowering 3).barrier.command = .lower ∧ (lowering 3).barrier.lowerOn = true ∧ (lowering 3).barrier.raiseOn = false
      ∧ (lowering 3).barrier.contactFault = false ∧ (lowering 3).barrier.down.level = some false ∧ (lowering 3).barrier.up.level = some false
      ∧ image.timing.filterLength ≤ (lowering 3).barrier.down.run + 1 ∧ (lowering 3).barrier.state ≠ .down := by decide

/-- LOWER commanded at an undriven barrier whose RAISE stopped some milliseconds ago. -/
def deadTime (stop : Time) : State := { open1 with barrier := { open1.barrier with command := .lower, raiseStop := stop } }

theorem test_witness_BarrierDrivesTakeTheirTimes_deadTime :
    (deadTime 99800#32).powered = true ∧ barrierServed (deadTime 99800#32) = true ∧ (deadTime 99800#32).barrier.contactFault = false
      ∧ (deadTime 99800#32).barrier.lowerOn = false ∧ (deadTime 99800#32).barrier.raiseOn = false ∧ (deadTime 99800#32).barrier.command = .lower
      ∧ (deadTime 99800#32).barrier.atDown = false ∧ 200 ≤ ((advance 0 (deadTime 99800#32)).clock.ms - 99800#32).toNat
      ∧ (deadTime 99800#32).barrier.state ≠ .lowering ∧ ((advance 0 (deadTime 99801#32)).clock.ms - 99801#32).toNat < 200
      ∧ (deadTime 99801#32).barrier.state = (deadTime 99801#32).barrier.stateNow := by decide

/-- RAISE commanded in OPENING at a barrier that is down. -/
def raising : State :=
  { closed1 with phase := { PhaseUnit.reset with phase := .opening }, barrier := { closed1.barrier with command := .raise, lowerStop := 99800#32 } }

theorem test_witness_BarrierDrivesTakeTheirTimes_raise :
    raising.powered = true ∧ raising.barrier.contactFault = false ∧ raising.barrier.lowerOn = false ∧ raising.barrier.raiseOn = false
      ∧ raising.barrier.command = .raise ∧ barrierServed raising = true ∧ raising.barrier.atUp = false ∧ raising.phase.phase = .opening
      ∧ 200 ≤ ((advance 0 raising).clock.ms - raising.barrier.lowerStop).toNat ∧ raising.barrier.state ≠ .raising := by decide

theorem test_witness_BarrierDrivesTakeTheirTimes_travel :
    (lowering 0).powered = true ∧ barrierServed (lowering 0) = true ∧ (lowering 0).barrier.lowerOn = true ∧ (lowering 0).barrier.raiseOn = false
      ∧ (lowering 0).barrier.contactFault = false ∧ (lowering 0).barrier.command = .lower ∧ (lowering 0).barrier.travelStart = some 90000#32 ∧ image.timing.travelTimeout * 1000 ≤ ((advance 0 (lowering 0)).clock.ms - 90000#32).toNat
      ∧ (lowering 0).barrier.atDown = false ∧ (lowering 0).barrier.stalled = false ∧ (lowering 0).barrier.state ≠ .stalled
      ∧ (lowering 0).conds.length < 31
      ∧ ({ (lowering 0).barrier with contactFault := true, state := .contactFault } : BarrierUnit).contactFault = true := by decide

/-- Both contacts made since 501 ms. -/
def bothMade : State :=
  { open1 with barrier := { open1.barrier with down := { level := some true, run := 0 }, bothSince := some 99499#32, beforeBoth := .up } }

theorem test_witness_BarrierDrivesTakeTheirTimes_contacts :
    bothMade.powered = true ∧ bothMade.barrier.down.level = some true ∧ bothMade.barrier.contactFault = false
      ∧ bothMade.barrier.bothSince = some 99499#32 ∧ bothMade.conds.length < 31 ∧ barrierServed bothMade = true
      ∧ bothMade.barrier.up.level = some true ∧ 500 < ((advance 0 bothMade).clock.ms - 99499#32).toNat
      ∧ bothMade.barrier.state ≠ .contactFault := by decide

/-- A declared lockout 8 s old. -/
def lockedOut : State := { open1 with join := { open1.join with state := .lockedOut, lowerStart := some 92000#32, nextHail := 100000#32 } }

theorem test_witness_BarrierDrivesTakeTheirTimes_lockout :
    lockedOut.powered = true ∧ lockedOut.join.state = .lockedOut ∧ lockedOut.join.lowerStart = some 92000#32 ∧ lockedOut.barrier.raiseOn = false
      ∧ barrierServed lockedOut = true ∧ 8000 ≤ ((advance 0 lockedOut).clock.ms - 92000#32).toNat ∧ lockedOut.barrier.atDown = false
      ∧ 200 ≤ ((advance 0 lockedOut).clock.ms - lockedOut.barrier.raiseStop).toNat := by decide

/-! ### Witnesses: conditions and notices -/

/-- LINE_FAILED of line A standing, with or without its entry, and gone from the set with its entry left. -/
def noticing (conds : List CondEntry) (entries : List Notice) (present : List CondId) : State :=
  { open1 with conds := conds, notices := { NoticeUnit.reset with kept := true, entries := entries, present := present } }

theorem test_witness_ConditionsRankByClassKindSubjectItem :
    open1.notices.kept = true ∧ (open1.notices.entries.length + (presentSet open1).length ≤ 16) ∧ open1.notices.present = presentSet open1
      ∧ presentSet (noticing [{ id := condOf .lineFailed 1 0, expiry := none }] [] []) = [condOf .lineFailed 1 0]
      ∧ (noticing [{ id := condOf .lineFailed 1 0, expiry := none }] [] []).notices.entries.find? (fun n => n.id == condOf .lineFailed 1 0) = none
      ∧ (noticing [{ id := condOf .lineFailed 1 0, expiry := none }] [{ id := condOf .lineFailed 1 0, state := .gone, pend := false }] []).notices.entries.find?
          (fun n => n.id == condOf .lineFailed 1 0) = some { id := condOf .lineFailed 1 0, state := .gone, pend := false }
      ∧ condOf .lineFailed 1 0 ∉ presentSet (noticing [] [] [condOf .lineFailed 1 0]) := by decide

theorem test_witness_ConditionsRankByClassKindSubjectItem_law :
    NoticeLaw (noticing [] [{ id := condOf .lineFailed 1 0, state := .acked, pend := false }] [condOf .lineFailed 1 0]) := by
  unfold NoticeLaw; decide

/-- Sixteen entries of one kind, one for each subject. -/
def fullList : List Notice := (List.finRange 16).map fun n => { id := { kind := .lateArrival, subject := n, item := 0 }, state := .raised, pend := false }

theorem test_witness_ConditionsRankByClassKindSubjectItem_full :
    fullList = fullList.dropLast ++ [{ id := { kind := .lateArrival, subject := 15, item := 0 }, state := .raised, pend := false }]
      ∧ fullList.length = 16 ∧ hasNotice fullList (condOf .peerLost 2 0) = false ∧ rankedFrom 0 (fullList.map (·.id)) = true
      ∧ (condOf .peerLost 2 0).rank < (condOf .lateArrival 15 0).rank ∧ (condOf .lateArrival 15 0).rank < (condOf .speedImplausible 2 0).rank
      ∧ hasNotice fullList (condOf .speedImplausible 2 0) = false := by decide +kernel

/-! ### Witnesses: the crossing line -/

/-- A queued frame. -/
def item (w : TxWhat) (n : Nat) : TxItem := { what := w, attempts := 0, seq := none, ord := n, queuedAt := 99990000#32 }

/-- A STATUS queued on a quiet line whose idle gap ended some microseconds ago: its holdoff at station 1 is 7350 us. -/
def contending (gap : Time) : State := { open1 with line := { open1.line with queue := [item .status 39], gapEnd := some gap } }

theorem test_witness_FramesContendForTheLine :
    open1.powered = true ∧ open1.line.rxOn = true ∧ heeded open1 .a = true ∧ (lineAt open1 (otherLine .a)).carrier = false ∧ open1.line.flight = none
      ∧ ({ open1.line with quietSince := none } : LineUnit).quietSince = none
      ∧ lineQuiet { open1 with line := { open1.line with quietSince := some 99999000#32, gapEnd := none } } = true
      ∧ 1000 ≤ ((advance 0 open1).clock.us - 99999000#32).toNat
      ∧ chosen (contending 99992650#32).line.queue = some (item .status 39) ∧ lineQuiet (contending 99992650#32) = true
      ∧ (contending 99992650#32).line.quietSince ≠ none ∧ reached (advance 0 open1).clock.us 99992650#32 = true
      ∧ (buildBody (advance 0 (contending 99992650#32)) .status).isSome = true
      ∧ (16 * FrameKind.status.classRank + 1) * 150 ≤ ((advance 0 open1).clock.us - 99992650#32).toNat
      ∧ ((advance 0 open1).clock.us - 99992651#32).toNat < (16 * FrameKind.status.classRank + 1) * 150 := by decide

/-- Two STRIKEs queued at one instant behind a STATUS, and requests new and old. -/
theorem test_witness_FramesContendForTheLine_chosen :
    chosen [item .status 37, item (.strike 1) 38, item (.strike 0) 39] = some (item (.strike 0) 39)
      ∧ (([item .status 37, item (.strike 1) 38, item (.strike 0) 39] : List TxItem).map (·.what.key)).Nodup ∧ chosen [] = none
      ∧ admits open1.join .status = true ∧ queuedUnder open1.line.queue TxWhat.status.key = none ∧ TxWhat.status.kind ≠ .service
      ∧ queuedUnder (contending 99992650#32).line.queue TxWhat.status.key ≠ none := by decide

/-- A frame of 24 bytes in flight, begun 6.25 ms ago: it takes 6250 us. -/
def flight (w : TxWhat) (a b : Bool) (n : Nat) : Flight :=
  { item := { item w 38 with seq := some 9#8, attempts := n }, bytes := List.replicate 24 0#8, startUs := 99993750#32, startMs := 99993#32, drivingA := a,
    drivingB := b, noRetry := false }

/-- The station sending it, with a queue. -/
def sending (f : Flight) (q : List TxItem) : State := { open1 with line := { open1.line with flight := some f, queue := q, gapEnd := none } }

theorem test_witness_AttemptsEndInSuccessRetryOrDrop :
    (sending (flight .status true true 0) []).powered = true
      ∧ (sending (flight .status true true 0) []).line.flight = some (flight .status true true 0)
      ∧ drives (sending (flight .status true true 0) []) .a = true ∧ (flight .status false false 0).noRetry = false
      ∧ (flight .status false false 0).item.what.kind ≠ .service ∧ open1.conds.length < 31
      ∧ ((flight .status true false 0).bytes.length * 15625 + 30) / 60 ≤ ((advance 0 open1).clock.us - 99993750#32).toNat
      ∧ (flight .status false false 0).item.attempts + 1 < 16 * image.timing.retryLimit
      ∧ queuedUnder ([] : List TxItem) TxKey.status = none ∧ queuedUnder [item .status 39] TxKey.status ≠ none
      ∧ 1 ≤ image.timing.retryLimit ∧ 16 * image.timing.retryLimit ≤ (flight .status false false 63).item.attempts + 1
      ∧ (flight .status true true 0).item.what ≠ .hail ∧ (sending (flight .status true true 0) []).line.gapEnd = none := by decide

/-- A JOIN frame in flight at a lockout, failed, alone and with a HAIL queued under its key. -/
theorem test_witness_AttemptsEndInSuccessRetryOrDrop_noRetry :
    ({ flight .hail false false 63 with noRetry := true } : Flight).noRetry = true
      ∧ queuedUnder (sending { flight .hail false false 63 with noRetry := true } []).line.queue TxWhat.hail.key = none
      ∧ queuedUnder (sending { flight .hail false false 63 with noRetry := true } [item .hail 39]).line.queue TxWhat.hail.key ≠ none := by decide

theorem test_witness_StatusFollowsItsPeriodAndHoldback :
    open1.powered = true ∧ open1.join.state = .joined ∧ statusQueued open1 = false ∧ statusLeftAt open1 = some 99900#32 ∧ image.timing.statusPeriod ≤ ((advance 150000 open1).clock.ms - 99900#32).toNat
      ∧ 40 ≤ ((advance 0 { open1 with line := { open1.line with heldBack := true, statusLeft := some 99960#32 } }).clock.ms - 99960#32).toNat
      ∧ ((advance 0 open1).clock.ms - 99961#32).toNat < 40 ∧ sinceMs open1 99961#32 < 40 := by decide

/-- A HAIL of station 2 and a STATUS of it. -/
def hailFrame : Frame :=
  { crossing := 0x1234#16, source := 2, seq := 8#8,
    body := .join { roles := { detect := true, post := true, report := false }, digest := 0xABCD#16, join := .hailing, answerTo := none } }

theorem test_witness_ReceivedFramesAreJudged :
    open1.powered = true ∧ open1.conds.length < 31 ∧ (lineAt open1 .a).health = .good ∧ LineRec.reset.health = .qualifying
      ∧ listens open1 .a = true ∧ judgeFrame 0x1234#16 [3#8, 0#8] = .framingFailure
      ∧ judgeFrame 0x1234#16 [8#8, 18#8, 52#8, 2#8, 3#8, 8#8, 0#8, 0#8] = .crcFailure
      ∧ (((false :: [false, false]).take 16).filter (! ·)).length < 4 ∧ 4 ≤ (((false :: [false, false, false]).take 16).filter (! ·)).length
      ∧ judgeFrame 0x1235#16 hailFrame.bytes = .foreign ∧ judgeFrame 0x1234#16 hailFrame.bytes = .valid
      ∧ readFrame hailFrame.bytes = some hailFrame ∧ hailFrame.source ≠ image.own ∧ (∃ e ∈ image.stations, e.number = hailFrame.source)
      ∧ remembers (advance 0 open1) hailFrame = false
      ∧ remembers (advance 0 { open1 with line := { open1.line with filter := [{ source := 2, kind := .join, seq := 8#8, time := 99001#32 }] } })
          hailFrame = true := by decide +kernel

/-- A FAILED line, and QUALIFYING ones at seven valid frames and at six. -/
theorem test_witness_ReceivedFramesAreJudged_health :
    (lineAt { open1 with line := { open1.line with a := { LineRec.reset with health := .failed } } } .a).health = .failed
      ∧ listens { open1 with line := { open1.line with a := { LineRec.reset with health := .failed } } } .a = true
      ∧ 8 ≤ ({ LineRec.reset with qualifying := 7 } : LineRec).qualifying + 1 ∧ ({ LineRec.reset with qualifying := 6 } : LineRec).qualifying + 1 < 8 := by
  decide

/-- Line A silent for the silence limit while line B is not. -/
def silentA : State := { open1 with line := { open1.line with a := { open1.line.a with lastValid := 99000#32 } } }

theorem test_witness_SilenceAndExpiriesTakeTheirTimes :
    silentA.powered = true ∧ silentA.line.rxOn = true ∧ (lineAt silentA .a).health ≠ .failed
      ∧ image.timing.silenceLimit ≤ ((advance 0 silentA).clock.ms - (lineAt silentA .a).lastValid).toNat
      ∧ ((advance 0 silentA).clock.ms - (lineAt silentA .b).lastValid).toNat < image.timing.silenceLimit ∧ silentA.conds.length < 31
      ∧ 1000 ≤ ((advance 0 open1).clock.ms - 99000#32).toNat ∧ reached (advance 0 open1).clock.ms 100000#32 = true := by decide

/-! ### Witnesses: peers -/

/-- A frame of station 2 on its way to its block. -/
def taken (b : Body) : Accepted := { source := 2, seq := 8#8, body := b, onA := true, onB := false, endMs := 100000#32, flashAt := 0 }

/-- The open crossing with it. -/
def handing (b : Body) : State := { open1 with line := { open1.line with accepted := [taken b] } }

/-- A STRIKE about DP 3 with one inward axle more than the baselines. -/
def strike : StrikeBody := { dp := 3, inn := 6#16, out := 5#16, epoch := 7#8, speed := 1000, delay := some 50 }

theorem test_witness_StrikeOccupiesTheApproach :
    (handing (.strike strike)).powered = true ∧ (handing (.strike strike)).line.accepted = [taken (.strike strike)]
      ∧ peerAt (handing (.strike strike)) 2 = some peer ∧ peer.state = .live ∧ image.dps[3]?.map (·.owner) = some 2 ∧ dpOuter 3 = true
      ∧ ((handing (.strike strike)).sections.map (·.id)).Nodup ∧ sectAt (handing (.strike strike)) (crossingSide 3) = some (sect 2)
      ∧ (sect 2).kind ≠ .island ∧ (sect 2).state = .clear ∧ (sect 2).balance = 0 ∧ (sect 2).tag = none ∧ (sect 2).deadline = none
      ∧ (sect 2).held = false ∧ (sect 2).base 3 = some { inn := 5#16, out := 5#16, epoch := 7#8 } ∧ strike.epoch = 7#8 ∧ strike.inn = 5#16 + 1
      ∧ strike.out = 5#16 ∧ strike.delay = some 50 ∧ (handing (.strike strike)).phase.releaseExpired = false
      ∧ image.dps[1]?.map (·.owner) = some 1 ∧ ({ peer with state := .stale } : Peer).state ≠ .live ∧ open1.conds.length ≤ 20
      ∧ (sect 2).state ≠ .disturbed ∧ ({ strike with epoch := 8#8 } : StrikeBody).epoch ≠ 7#8
      ∧ 1000 < (({ strike with inn := 1006#16 } : StrikeBody).inn - 5#16).toNat := by decide

/-- A STATUS of station 2. -/
def status (digest : Half) (p : Phase) : StatusBody :=
  { roles := peer.roles, epoch := 7#8, phase := p, digest := digest, healthA := .good, healthB := .good, dps := [], post := peer.post,
    sections := [.clear, .clear, .clear], conds := [], condCount := 0 }

theorem test_witness_StatusIsEnteredOrMismatched :
    (handing (.status (status 0xABCD#16 .closed))).powered = true
      ∧ (handing (.status (status 0xABCD#16 .closed))).line.accepted = [taken (.status (status 0xABCD#16 .closed))]
      ∧ peerAt (handing (.status (status 0xABCD#16 .closed))) 2 = some peer ∧ open1.join.state = .joined
      ∧ (status 0xABCD#16 .closed).digest = open1.digest ∧ (status 0xABCE#16 .opened).digest ≠ open1.digest ∧ peer.state ≠ .mismatched
      ∧ open1.conds.length ≤ 16 ∧ open1.sections.length ≤ 6 ∧ open1.phase.phase ≠ .starting := by decide

/-- FAILED with station 2 STALE and a section RESTORING. -/
def failed1 (b : StatusBody) : State :=
  { handing (.status b) with peers := [{ peer with state := .stale }], phase := { PhaseUnit.reset with phase := .failed },
                             sections := [sect 0, sect 1, { sect 2 with state := .restoring }] }

theorem test_witness_StatusIsEnteredOrMismatched_stale :
    peerAt (failed1 (status 0xABCD#16 .closed)) 2 = some { peer with state := .stale } ∧ (failed1 (status 0xABCD#16 .closed)).join.state = .joined
      ∧ ({ peer with state := .stale } : Peer).state ≠ .live
      ∧ (failed1 (status 0xABCD#16 .closed)).line.accepted = [taken (.status (status 0xABCD#16 .closed))] := by decide

/-- A JOIN of station 2. -/
def joinOf (j : JoinState) (dest : Option Nat) : JoinBody := { roles := peer.roles, digest := 0xABCD#16, join := j, answerTo := dest }

theorem test_witness_HailAndAnswerMoveTheEntry :
    (handing (.join (joinOf .hailing none))).powered = true ∧ peerAt (handing (.join (joinOf .hailing none))) 2 = some peer
      ∧ open1.join.state = .joined ∧ (handing (.join (joinOf .hailing none))).line.accepted = [taken (.join (joinOf .hailing none))]
      ∧ (joinOf .hailing none).answerTo = none ∧ (joinOf .joined (some 1)).answerTo ≠ none ∧ (joinOf .lockedOut none).join = .lockedOut
      ∧ (joinOf .hailing none).digest = open1.digest ∧ ({ open1.join with state := .hailing, firstHailSent := false } : JoinUnit).firstHailSent = false := by
  decide

/-- Section 2 DISTURBED. -/
def disturbed (acc : List Accepted) : State :=
  { open1 with sections := [sect 0, sect 1, { sect 2 with state := .disturbed, balance := 3 }], key := { level := some true, run := 0 },
               line := { open1.line with accepted := acc } }

theorem test_witness_ResetOrderEmptiesTheSection :
    (disturbed []).powered = true ∧ (disturbed []).join.state = .joined ∧ sectAt (disturbed []) 2 = some { sect 2 with state := .disturbed, balance := 3 } ∧ keyActive (disturbed []) = true
      ∧ sectProven (disturbed []) 2 = true ∧ portTaken (disturbed []) = false ∧ (disturbed []).phase.releaseExpired = false
      ∧ (disturbed [taken (.service { sec := 2, kind := .direct, key := true })]).line.accepted
        = [taken (.service { sec := 2, kind := .direct, key := true })] := by decide

/-- The refusals of RESET SECTION in their order, and an order about a CLEAR section. -/
theorem test_witness_ResetOrdersAreRefused :
    open1.powered = true ∧ portTaken open1 = false ∧ open1.join.state ≠ .loading ∧ sectAt open1 3 = none ∧ sectAt open1 2 = some (sect 2)
      ∧ (sect 2).state = .clear ∧ sectAt (disturbed []) 2 = some { sect 2 with state := .disturbed, balance := 3 }
      ∧ lockedOut.join.state ≠ .joined ∧ keyActive { disturbed [] with key := { level := some false, run := 0 } } = false
      ∧ keyActive (disturbed []) = true ∧ sectProven { disturbed [] with view := [] } 2 = false
      ∧ (handing (.service { sec := 2, kind := .sweep, key := false })).line.accepted = [taken (.service { sec := 2, kind := .sweep, key := false })]
      ∧ sectAt (handing (.service { sec := 2, kind := .sweep, key := false })) 2 = some (sect 2) := by decide

/-- HAILING with the join window at its end: verdicts in balance, or one more DIFFERENT than EQUAL. -/
def hailing (v : Verdict) : State :=
  { open1 with join := { open1.join with state := .hailing, windowStart := some 95000#32, nextHail := 100000#32, verdicts := [(2, v)] },
               phase := PhaseUnit.reset, seq := SeqUnit.reset, peers := [{ peer with state := .unheard }] }

theorem test_witness_JoiningEndsInJoinedOrLockedOut :
    (hailing .equal).powered = true ∧ (hailing .equal).join.state = .hailing ∧ (hailing .equal).join.blind = false
      ∧ (hailing .equal).join.windowStart = some 95000#32 ∧ reached (advance 0 (hailing .equal)).clock.ms (hailing .equal).join.nextHail = true
      ∧ image.timing.joinWindow ≤ ((advance 0 (hailing .equal)).clock.ms - 95000#32).toNat ∧ countVerdicts .different (hailing .unheard) = 0
      ∧ 0 < countVerdicts .different (hailing .different) ∧ countVerdicts .equal (hailing .different) < countVerdicts .different (hailing .different)
      ∧ ((hailing .unheard).peers.map (·.station)).Nodup ∧ (hailing .unheard).phase.phase = .starting ∧ (hailing .unheard).seq.state = .idle := by
  decide

/-- The first HAIL at its end. -/
def firstHail (v : Verdict) : State :=
  { hailing v with join := { (hailing v).join with firstHailSent := false },
                   line := { open1.line with flight := some (flight .hail true true 0), gapEnd := none } }

theorem test_witness_JoiningEndsInJoinedOrLockedOut_firstHail :
    (firstHail .equal).powered = true ∧ (firstHail .equal).line.flight = some (flight .hail true true 0)
      ∧ (flight .hail true true 0).item.what = .hail ∧ (flight .hail true true 0).drivingA = true
      ∧ ((flight .hail true true 0).bytes.length * 15625 + 30) / 60 ≤ ((advance 0 (firstHail .equal)).clock.us - 99993750#32).toNat
      ∧ (firstHail .equal).join.state = .hailing ∧ (firstHail .equal).join.firstHailSent = false ∧ (firstHail .equal).phase.phase = .starting
      ∧ (firstHail .equal).line.gapEnd = none ∧ (∀ e ∈ (firstHail .equal).join.verdicts, e.2 = .equal)
      ∧ (∃ e ∈ (firstHail .unheard).join.verdicts, e.2 ≠ .equal) := by decide

/-- Station 2 as a peer of another age or state. -/
def withPeer (p : Peer) : State := { open1 with peers := [p] }

/-- A peer of 1000 ms of age 1 ms later, with a peer timeout of 1000 ms, and a HAILING one last heard 1001 ms ago. -/
theorem test_witness_SilentPeerIsLost :
    (withPeer { peer with age := some 1000 }).powered = true
      ∧ peerAt (withPeer { peer with age := some 1000 }) 2 = some { peer with age := some 1000 } ∧ open1.join.state = .joined
      ∧ open1.conds.length ≤ 16 ∧ open1.sections.length ≤ 6 ∧ (open1.sections.map (·.id)).Nodup ∧ open1.phase.phase ≠ .starting
      ∧ image.timing.statusPeriod * image.timing.timeoutFactor < min (1000 + (open1.clock.frac + 1000) / 1000) (2 ^ 30)
      ∧ peerAt (withPeer { peer with state := .hailing, lastHeard := some 98999#32 }) 2
        = some { peer with state := .hailing, lastHeard := some 98999#32 }
      ∧ image.timing.statusPeriod * image.timing.timeoutFactor < ((advance 0 open1).clock.ms - 98999#32).toNat
      ∧ (∃ d ∈ dpsOf open1 2, 2 ∈ boundedBy d) ∧ failureDemand (withPeer { peer with age := some 1000 }) = false ∧ open1.phase.phase ≠ .failed
      ∧ open1.firstFault = none ∧ 2 ≠ open1.cfg.own ∧ ((withPeer { peer with age := some 1000 }).peers.map (·.station)).Nodup := by decide

theorem test_witness_StandingMismatchRaisesPeerDisagrees :
    peerAt (advance 0 { open1 with peers := [{ peer with mismatchSince := some 97000#32 }] }) 2 = some { peer with mismatchSince := some 97000#32 }
      ∧ reached (advance 0 open1).clock.ms (later 97000#32 image.timing.tolerance) = true
      ∧ reached (advance 0 open1).clock.ms (later 97001#32 image.timing.tolerance) = false := by decide

/-! ### Witnesses: signaller line, maintainer port, start -/

/-- A condition and its notice. -/
def lineNotice (st : NoticeState) (p : Bool) : Notice := { id := condOf .lineFailed 1 0, state := st, pend := p }

/-- The signaller line with one notice, and a frame in flight where there is one. -/
def sigState (n : Notice) (f : Option SigFlight) : State :=
  { open1 with notices := { NoticeUnit.reset with kept := true, entries := [n] }, sig := { open1.sig with flight := f } }

theorem test_witness_TransmitterKeepsItsGrid :
    open1.powered = true ∧ open1.sig.started = true ∧ open1.sig.dueMark = false ∧ ({ open1.sig with due := some 100000#32 } : SigUnit).due = some 100000#32 ∧ reached (advance 0 open1).clock.ms 100000#32 = true
      ∧ open1.sig.flight = none ∧ open1.sig.lastEnd = some 99800#32 ∧ open1.sig.due.any (reached (advance 0 open1).clock.ms) = false
      ∧ (sigState (lineNotice .raised true) none).notices.entries.find? (·.pend) = some (lineNotice .raised true)
      ∧ 200 ≤ ((advance 0 open1).clock.ms - 99800#32).toNat ∧ ((advance 0 open1).clock.ms - 99801#32).toNat < 200
      ∧ 9 * 1042 ≤ ((advance 0 open1).clock.us - 99990622#32).toNat := by decide

/-- Bytes that end one after the other, some microseconds apart. -/
def arriving (t : Time) (gap : Nat) : List Byte → List RxByte
  | [] => []
  | b :: rest => { time := t, byte := b } :: arriving (later t gap) gap rest

theorem test_witness_BoxFramesAreTaken :
    open1.powered = true ∧ open1.sig.started = true ∧ open1.sig.rx = [] ∧ (∀ x ∈ arriving 99980000#32 1042 [1#8, 2#8], x.byte ≠ 165#8)
      ∧ (∀ gap ∈ [1042, 20000], unbroken (arriving 99900000#32 gap (sigFrame [1#8, 2#8])) = true)
      ∧ (arriving 99900000#32 1042 (sigFrame [1#8, 2#8])).map (·.byte) = sigFrame [1#8, 2#8]
      ∧ unbroken (arriving 99900000#32 20001 (sigFrame [1#8, 2#8])) = false := by decide +kernel

theorem test_witness_BoxFramesAreTaken_timeout :
    arriving 99978957#32 1042 [165#8, 1#8] = arriving 99978957#32 1042 [165#8] ++ [{ time := 99979999#32, byte := 1#8 }]
      ∧ unbroken (arriving 99978957#32 1042 [165#8, 1#8]) = true ∧ [165#8, 1#8] ++ (sigFrame [2#8]).drop 2 = sigFrame [2#8]
      ∧ (sigFrame [2#8]).drop 2 ≠ [] ∧ 20000 < ((advance 0 open1).clock.us - 99979999#32).toNat
      ∧ ((advance 0 open1).clock.us - 99980000#32).toNat ≤ 20000 := by decide +kernel

/-- A silence, one that a late start byte ends, a wrong length, a wrong class: the outcome and what is left. -/
theorem test_witness_BoxFramesAreTaken_faults :
    readInward 100000000#32 (arriving 99978957#32 1042 [165#8, 1#8]) = (.timeout, [])
      ∧ readInward 100000000#32 (arriving 99979000#32 20001 [165#8, 165#8]) = (.timeout, [{ time := 99999001#32, byte := 165#8 }])
      ∧ readInward 100000000#32 (arriving 99990000#32 1042 [165#8, 3#8, 165#8]) = (.malformed, [{ time := 99992084#32, byte := 165#8 }])
      ∧ (readInward 100000000#32 (arriving 99990000#32 1042 (sigFrame [1#8, 4#8]))).1 = .malformed := by decide +kernel

theorem test_witness_ReadingCommandsAnswer :
    open1.powered = true ∧ portTaken open1 = false ∧ open1.join.state ≠ .loading ∧ hasSignaller open1 = true
      ∧ hasSignaller { open1 with cfg := { image with own := 2 } } = false
      ∧ ({ open1 with join := JoinUnit.reset } : State).join.state = .loading := by decide

theorem test_witness_CalibrateStartsASweepOrIsRefused :
    open1.powered = true ∧ portTaken open1 = false ∧ open1.join.state ≠ .loading ∧ ownDp open1 2 = none ∧ ownDp open1 0 = some (dp 0 0) ∧ dpAt open1 (dp 0 0).slot = some (dp 0 0)
      ∧ (∀ i ∈ boundedBy 0, (sectAt open1 i).any (fun r => r.state == .clear) = true)
      ∧ ({ dp 0 0 with state := .faulted, supplyCause := true } : DpUnit).first.supply = .normal ∧ head.covered = false
      ∧ ({ dp 0 0 with state := .calibrating } : DpUnit).state = .calibrating
      ∧ ({ dp 0 0 with state := .faulted, first := { head with covered := true } } : DpUnit).first.threshold ≠ none := by decide

/-- The letter X and a carriage return: a whole line that is no command, and the same with 2 s between the two. -/
theorem test_witness_OtherPortCommandsAnswer :
    open1.powered = true ∧ portTaken open1 = false ∧ open1.join.state ≠ .loading
      ∧ open1.port.rx ++ arriving 99990000#32 1000 [88#8, 13#8] = arriving 99990000#32 1000 [88#8] ++ [{ time := 99991000#32, byte := 13#8 }]
      ∧ (∀ x ∈ arriving 99990000#32 1000 [88#8], x.byte ≠ 13#8) ∧ flowing (arriving 99990000#32 1000 [88#8, 13#8]) = true
      ∧ parseLine (arriving 99990000#32 1000 [88#8, 13#8]) = none ∧ flowing (arriving 97990000#32 1999999 [88#8, 13#8]) = true
      ∧ flowing (arriving 97990000#32 2000000 [88#8, 13#8]) = false
      ∧ portTaken { open1 with port := { PortUnit.reset with cmd := some .showPeers, reply := some (bare .done) } } = true
      ∧ ({ PortUnit.reset with busy := .sending } : PortUnit).busy = .sending
      ∧ ({ PortUnit.reset with cmd := some .restart, reply := some (bare .done) } : PortUnit).reply ≠ none := by decide

/-- A byte without its carriage return: 2 s before a late one, 2 s before now, and a microsecond less. -/
theorem test_witness_OtherPortCommandsAnswer_silence :
    open1.port.rx ++ arriving 97990000#32 2000000 [88#8, 89#8]
        = [] ++ { time := 97990000#32, byte := 88#8 } :: [{ time := 99990000#32, byte := 89#8 }]
      ∧ flowing ([] ++ [{ time := 97990000#32, byte := 88#8 }]) = true ∧ 2000000 ≤ (99990000#32 - 97990000#32 : Time).toNat
      ∧ 2000000 ≤ ((advance 0 open1).clock.us - 98000000#32).toNat ∧ ((advance 0 open1).clock.us - 98000001#32).toNat < 2000000 := by decide

/-! ### Witnesses: the start and the frames of the line -/

/-- A step record's bytes. -/
def stepBytes (amber red bar wait dwell lim next : Nat) : List Byte :=
  [BitVec.ofNat 8 (amber + 2 * red + 16 * bar), BitVec.ofNat 8 wait] ++ nat2 dwell ++ nat2 lim ++ [BitVec.ofNat 8 next]

/-- An image's bytes without its length and CRC, field by field as chapter 12 lays them out. -/
def imageBody (own : Nat) (low : Nat) : List Byte :=
  [0x12#8, 0x34#8, 2#8, BitVec.ofNat 8 (1 + 16 * 7 + 128), BitVec.ofNat 8 (2 + 16 * 3), 1#8]
    ++ [1#8 + 32#8] ++ nat2 1800 ++ nat2 300 ++ [1#8 + 16#8 + 32#8] ++ nat2 60 ++ nat2 300 ++ [2#8 + 32#8] ++ nat2 60 ++ nat2 300
    ++ [2#8 + 16#8 + 32#8] ++ nat2 1800 ++ nat2 300
    ++ [1#8, 1#8, 2#8, BitVec.ofNat 8 own] ++ (List.replicate 17 [255#8, 255#8, 255#8]).flatten
    ++ (List.replicate 9 (nat2 low ++ nat2 200)).flatten ++ [0#8, 6#8, 0#8, 2#8, 4#8]
    ++ stepBytes 1 0 0 0 3000 0 1 ++ stepBytes 0 1 1 3 0 20000 255 ++ stepBytes 0 1 2 4 0 20000 3 ++ stepBytes 0 0 0 0 100 0 255
    ++ stepBytes 0 1 0 0 8000 0 5 ++ stepBytes 0 1 1 3 0 20000 255

/-- The memory that holds a restart count and an image. -/
def memOf (count : Byte) (own low : Nat) : List Host.Cell :=
  let l := nat2 ((imageBody own low).length + 4) ++ imageBody own low
  ((count :: withCrc l).zipIdx.map fun e => (e.2, e.1)).filter fun c => c.2 != 0#8

/-- LOADING with a memory. -/
def loading (m : List Host.Cell) : State := { State.reset with powered := true, mem := m }

/-- Which way a load check comes out: 0 passed, 1 declared lockout, 2 blind lockout. -/
def loadWay : LoadOutcome → Nat
  | .passed _ _ _ => 0
  | .declared _ _ _ => 1
  | .blind _ => 2

set_option maxRecDepth 100000 in
theorem test_witness_PassedImageStartsTheStation :
    (loading (memOf 255#8 1 100)).powered = true ∧ (loading (memOf 255#8 1 100)).join.state = .loading
      ∧ (loading (memOf 255#8 1 100)).phase.phase = .starting ∧ (loading (memOf 255#8 1 100)).conds = []
      ∧ Memory.wf (loading (memOf 255#8 1 100)).mem = true ∧ loadWay (loadCheck true true (loading (memOf 255#8 1 100)).mem) = 0 := by
  decide +kernel

set_option maxRecDepth 100000 in
/-- Limits that are not low below high; a byte read back wrong; an own number that the station list does not hold; no answer. -/
theorem test_witness_FailedImageLocksTheStationOut :
    (loading (memOf 7#8 1 200)).powered = true ∧ (loading (memOf 7#8 1 200)).join.blind = false
      ∧ loadWay (loadCheck true (readBackOk none (loading (memOf 7#8 1 200))) (memOf 7#8 1 200)) = 1
      ∧ loadWay (loadCheck true (readBackOk (some 9#8) (loading (memOf 7#8 1 100))) (memOf 7#8 1 100)) = 1
      ∧ loadWay (loadCheck true (readBackOk none (loading (memOf 7#8 3 100))) (memOf 7#8 3 100)) = 2
      ∧ loadWay (loadCheck false true (memOf 7#8 1 100)) = 2 := by
  decide +kernel

theorem test_witness_FailedImageLocksTheStationOut_queue : QueueLaw (loading []) := by
  refine ⟨by decide, by decide, by decide, by decide, ?_⟩
  intro f h; have h' : (none : Option Flight) = some f := h; cases h'

/-- Declared lockout: one section UNKNOWN, two RESTORING, a STATUS of station 2 or a reset order in the hand-over. -/
def declared1 (b : Body) : State :=
  { handing b with
    join := { JoinUnit.reset with state := .lockedOut, declared := true, verdicts := [(2, .equal)] }, phase := PhaseUnit.reset,
    sections := [{ sect 0 with state := .unknown }, { sect 1 with state := .restoring }, { sect 2 with state := .restoring, sweepAxles := 4 }] }

/-- R190's clause, and the premises of the other statements that name declared lockout. -/
theorem test_witness_FailedImageLocksTheStationOut_stay :
    resets (.statusTaken 0) (declared1 (.status (status 0xABCD#16 .closed))) = false
      ∧ declaredLockout (declared1 (.status (status 0xABCD#16 .closed))) = true
      ∧ ((declared1 (.status (status 0xABCD#16 .closed))).sections.map (·.id)).Nodup
      ∧ (∀ r ∈ (declared1 (.status (status 0xABCD#16 .closed))).sections, r.state = .unknown ∨ r.state = .restoring)
      ∧ declaredLockout open1 = false ∧ ({ sect 1 with state := .restoring } : Sect).state = .restoring := by decide

/-- R94, R190: reports that would disturb, forget or clear the sections in a declared lockout leave their states; the baselines follow. -/
theorem test_declared_sections_stay :
    after (exec (.statusTaken 0) (declared1 (.status { status 0xABCD#16 .closed with
        dps := [{ dp := 2, state := .faulted, headsClear := true, inn := 5#16, out := 5#16, speed := 0 },
          { dp := 3, state := .working, headsClear := true, inn := 6#16, out := 6#16, speed := 0 }] })))
      (fun t => t.sections.map fun r => (r.state, r.balance, r.baseOuter.map (·.inn)))
      = some [(.unknown, 0, some 5#16), (.restoring, 0, some 5#16), (.restoring, 0, some 6#16)] := by decide +kernel

/-- R61, R190: in a declared lockout a DIRECT order is ignored, and so is a SWEEP order for an UNKNOWN section. -/
theorem test_declared_orders :
    orderAllowed (declared1 (.service { sec := 1, kind := .direct, key := true })) { sec := 1, kind := .direct, key := true } = false
      ∧ orderAllowed (declared1 (.service { sec := 0, kind := .sweep, key := false })) { sec := 0, kind := .sweep, key := false } = false
      ∧ orderAllowed (declared1 (.service { sec := 1, kind := .sweep, key := false })) { sec := 1, kind := .sweep, key := false } = true := by decide

/-- R10, log 71: below 4 and outside the window at once. -/
theorem test_too_low_first : judgeHead 6 (some 34) (some 8) = .refused .tooLow ∧ judgeHead 6 (some 34) (some 26) = .refused .outOfWindow := by decide

theorem test_witness_FramesReadBack : hailFrame.wf = true := by decide

/-! ### Results worked out from the manual -/

/-- R198: the CRC of the nine digits 1 to 9, the known check value of this polynomial, start value and order. -/
theorem test_crc_check_value : crc16 [49#8, 50#8, 51#8, 52#8, 53#8, 54#8, 55#8, 56#8, 57#8] = 0x29B1#16 := by decide +kernel

/-- Chapter 12: a HAIL is 13 bytes long, its envelope and body as laid out. -/
theorem test_hail_bytes :
    hailFrame.bytes.length = 13
      ∧ hailFrame.bytes.take 11 = [13#8, 0x12#8, 0x34#8, 2#8, 3#8, 8#8, 1#8, 3#8, 0xAB#8, 0xCD#8, 1#8] := by decide +kernel

/-- Chapter 12: a STRIKE is 19 bytes long and lasts 4,948 us (R63). -/
theorem test_strike_bytes :
    ({ crossing := 0x1234#16, source := 2, seq := 8#8, body := .strike strike } : Frame).bytes.take 17
      = [19#8, 0x12#8, 0x34#8, 2#8, 1#8, 8#8, 3#8, 0#8, 6#8, 0#8, 5#8, 7#8, 3#8, 232#8, 0#8, 0#8, 50#8] ∧ frameUs 19 = 4948 := by decide +kernel

/-- Chapter 02, the limits of the arithmetic, and axles 1 to 4 of the passenger train. -/
theorem test_speed_examples :
    axleSpeed 300 (some 7480) false = 4010 ∧ axleDelay 1800 4010 30000 120000 = 14800 ∧ axleSpeed 300 (some 7520) false = 3989
      ∧ axleDelay 1800 3989 30000 120000 = 15100 ∧ axleSpeed 300 (some 5200) false = 5000 ∧ speedClamped 300 (some 5200) false = true
      ∧ axleDelay 1800 5000 30000 120000 = 6000 ∧ axleDelay 1800 600 30000 75050 = 75000 ∧ axleSpeed 300 (some 600000) false = 50
      ∧ axleSpeed 300 (some 600001) false = 0 := by decide

/-- Chapter 02: 14,975 ms remaining at 7,200,405 give the deadline 7,215,330. -/
theorem test_received_deadline : receivedDeadline 7200405#32 50 14975 = 7215330#32 := by decide

/-- Chapter 01: boundary 30 with margin 6 gives 24, within 12 of 34; boundary 26 gives 20, 14 off. -/
theorem test_calibration_example :
    judgeHead 6 (some 34) (some 30) = .accepted 24 ∧ judgeHead 6 (some 34) (some 26) = .refused .outOfWindow := by decide

/-- Chapter 08: the leader's offset 120, the own 940: an error of +230; the next cycle begins at offset 40 and SLEW_LIMITED is set. -/
theorem test_flash_example :
    flashError 120 50 940 1000 = 230
      ∧ (FlashUnit.nextCycle 5000#32 { FlashUnit.reset with corr := some 230 }).mode = .running 4960#32
      ∧ FlashUnit.limited { FlashUnit.reset with corr := some 230 } = true ∧ FlashUnit.limited { FlashUnit.reset with corr := some 40 } = false := by
  decide

/-- Chapter 04: holdoffs of 1 slot, 21 slots and 51 slots. -/
theorem test_holdoffs : holdoffUs .strike 1 = 150 ∧ holdoffUs .service 5 = 3150 ∧ holdoffUs .status 3 = 7650 := by decide

/-- Chapter 02: the inward axle of 10 ms at DP 0 runs at 3,000 cm/s, arrives after 60,000 ms and gives the delay 30,000 from its first cover. -/
theorem test_inward_axle :
    after (exec (.acceptedEdge 0 0 none (some 20)) (withDp dpInward)) (fun t => (sectAt t 0).map fun r => (r.balance, r.t0, r.deadline))
      = some (some (1, some 99980#32, some 129980#32)) := by decide +kernel

/-- R105, R113: a deadline reached while OPEN closes the crossing and starts CLOSE, whose first step lights amber. -/
theorem test_deadline_closes :
    after (exec (.deadlineExpiry 0 0) { open1 with sections := [approach 100000#32, sect 1, sect 2] })
      (fun t => (t.phase.phase, t.seq.state, t.lights.amber)) = some (.closing, .running, true) := by decide +kernel

/-- R158, R162: LOWER reaches DOWN while CLOSING: the drive stops. -/
theorem test_down_reached :
    after (exec (.contactChange 0 .down) (lowering 3)) (fun t => (t.barrier.state, t.barrier.lowerOn)) = some (.down, false) := by decide +kernel

/-- R164: the failed result of a pulse is counted as the pulse ends. -/
theorem test_dci_result_counts : after (exec (.testPulseEnd 0 .dcis) (pulsing true)) (fun t => t.dci.out0.map (·.lamp.failed)) = some (some 1) := by
  decide +kernel

/-- R148: a pattern that lights the aspect discards the result of its pulse. -/
theorem test_lamp_result_discarded :
    (applyPattern true .off { open1 with lights := { open1.lights with
      a0 := { AspectRec.reset with main := { LampString.reset with failed := 1 } },
      pulse := some { start := 99985#32, amber := true, red1 := false, red2 := false, sampled := true } } }).lights.a0.main = LampString.reset := by decide

/-- R169: a frame with 20,001 us between its bytes is no ACK. -/
theorem test_broken_ack :
    after (exec (.ack 0 (arriving 99900000#32 20001 (sigFrame [1#8, 2#8]))) (sigState (lineNotice .raised false) none)) (fun t => t.notices.entries)
      = some [lineNotice .raised false] := by decide +kernel

/-- R96, R106, R124: a peer's becoming LIVE takes the phase out of FAILED before its reports, and a FAULTED DP among them back into it. -/
theorem test_live_before_reports :
    after (exec (.statusTaken 0) (failed1 { status 0xABCD#16 .closed with
      dps := [{ dp := 3, state := .faulted, headsClear := true, inn := 5#16, out := 5#16, speed := 0 }] }))
      (fun t => (t.phase.phase, t.firstFault.map (·.before))) = some (.failed, some .closing) := by decide +kernel

/-- R94, R116: the compare comes last, after the STATUS that reports OPENING has moved a descending post to OPENING. -/
theorem test_compare_comes_last :
    after (exec (.statusTaken 0) { handing (.status (status 0xABCD#16 .opening)) with
        phase := { PhaseUnit.reset with phase := .closing },
        seq := { SeqUnit.reset with state := .running, list := some .close, step := some 1, stepStart := 99000#32, lowerReached := true } })
      (fun t => (t.phase.phase, t.peers.map (·.stickyPhase))) = some (.opening, [false]) := by decide +kernel

/-- R68, R71: a JOIN frame that is not retried passes its count to the HAIL queued under its key. -/
theorem test_unretried_count_passes :
    after (exec (.frameAttemptEnd 0) (sending { flight .hail false false 4 with noRetry := true } [item .hail 39]))
      (fun t => (t.line.flight.isNone, t.line.queue.map (·.attempts), t.latches.has .txRetrySeen)) = some (true, [5], true) := by decide +kernel

/-- R195: 2 s without a byte discard a begun line, a microsecond less does not. -/
theorem test_port_silence :
    after (exec (.commandTimeout 0 (arriving 98000000#32 0 [88#8])) open1) (·.port.rx) = some []
      ∧ after (exec (.commandTimeout 0 []) { open1 with port := { open1.port with rx := arriving 98000001#32 0 [88#8] } }) (fun t => t.port.rx.length)
        = some 1 := by decide +kernel

/-- R97: a MISMATCHED entry leaves that state at an ANSWER of equal digest that shows LOCKED_OUT. -/
theorem test_answer_locked_out : joinState .mismatched true false true = .stale ∧ joinState .hailing true false true = .hailing := by decide

/-- R194: a reset during LOADING has the count rise once more. -/
theorem test_interrupted_loading : after (exec (.powerOnReset 0) { State.reset with powered := true, mem := [(0, 7#8)] }) (·.mem) = some [(0, 8#8)] := by decide

set_option maxRecDepth 100000 in
/-- R189, R192: a restart count of 255 passes to 0, and the START sweeps begin. -/
theorem test_loading_ends :
    after (exec (.loadingEnd 0 true none) (loading (memOf 255#8 1 100)))
      (fun t => (t.restartCount, t.join.state, t.dps.map (·.state), t.sections.map (·.state)))
      = some (0#8, .calibrating, [.calibrating, .calibrating], [.unknown, .unknown, .unknown]) := by decide +kernel

end Sys2Proof.Tests
end

section
/-! SUPPORT. Rules used by the statements about detection points: a record read after it has been replaced, conditions raised and cleared, sections
disturbed, and what the work of an event hands on to its end. -/

namespace Sys2Proof.Machine

/-! ### The record of a detection point -/

theorem dpAt_congr {s t : State} (h : t.dps = s.dps) (slot : Slot) : dpAt t slot = dpAt s slot := by
  simp only [dpAt, h]

theorem dpAt_slot {s : State} {slot : Slot} {u : DpUnit} (h : dpAt s slot = some u) : u.slot = slot := by
  simpa using List.find?_some h

theorem dpAt_mem {s : State} {slot : Slot} {u : DpUnit} (h : dpAt s slot = some u) : u ∈ s.dps := List.mem_of_find?_eq_some h

/-- A record that replaces the one of its slot is read back there. -/
theorem dpAt_putDp {s : State} {slot : Slot} {u v : DpUnit} (h : dpAt s slot = some u) (hv : v.slot = u.slot) : dpAt (putDp v s) slot = some v := by
  have hu : v.slot = slot := hv.trans (dpAt_slot h)
  have hp : ((fun w : DpUnit => w.slot == slot) ∘ fun w => if w.slot = v.slot then v else w) = fun w => w.slot == slot := by
    funext w
    by_cases hw : w.slot = slot <;> simp [hw, hu]
  have hf : s.dps.find? (fun w => w.slot == slot) = some u := h
  simp only [dpAt, putDp, List.find?_map, hp, hf, Option.map_some, hv.symm, if_true]

/-- Of two records put at one slot the later stands. -/
theorem putDp_putDp {u v : DpUnit} (h : v.slot = u.slot) (s : State) : putDp v (putDp u s) = putDp v s := by
  have hf : (fun w : DpUnit => if (if w.slot = u.slot then u else w).slot = v.slot then v else (if w.slot = u.slot then u else w))
      = fun w => if w.slot = v.slot then v else w := by
    funext w
    by_cases hw : w.slot = u.slot <;> simp [hw, h]
  simp only [putDp, List.map_map, Function.comp_def, hf]

/-- A record put and then given a state is put once. -/
theorem putDp_withState (u : DpUnit) (st : DpState) (s : State) : putDp { u with state := st } (putDp u s) = putDp { u with state := st } s :=
  putDp_putDp (by rfl) s

@[simp] theorem DpUnit.mapHead_slot (u : DpUnit) (f : Head → Head) (p : HeadPos) : (u.mapHead f p).slot = u.slot := by cases p <;> rfl
@[simp] theorem DpUnit.mapHead_id (u : DpUnit) (f : Head → Head) (p : HeadPos) : (u.mapHead f p).id = u.id := by cases p <;> rfl
@[simp] theorem DpUnit.mapHead_state (u : DpUnit) (f : Head → Head) (p : HeadPos) : (u.mapHead f p).state = u.state := by cases p <;> rfl
@[simp] theorem DpUnit.mapHead_nearSecond (u : DpUnit) (f : Head → Head) (p : HeadPos) : (u.mapHead f p).nearSecond = u.nearSecond := by cases p <;> rfl
@[simp] theorem DpUnit.mapHead_due (u : DpUnit) (f : Head → Head) (p : HeadPos) : (u.mapHead f p).due = u.due := by cases p <;> rfl
@[simp] theorem DpUnit.mapHead_sweep (u : DpUnit) (f : Head → Head) (p : HeadPos) : (u.mapHead f p).sweep = u.sweep := by cases p <;> rfl
@[simp] theorem DpUnit.mapHead_caused (u : DpUnit) (f : Head → Head) (p : HeadPos) : (u.mapHead f p).caused = u.caused := by cases p <;> rfl
@[simp] theorem DpUnit.head_mapHead_same (u : DpUnit) (f : Head → Head) (p : HeadPos) : (u.mapHead f p).head p = f (u.head p) := by cases p <;> rfl
@[simp] theorem DpUnit.head_mapHead_other (u : DpUnit) (f : Head → Head) (p : HeadPos) :
    (u.mapHead f p).head (otherHead p) = u.head (otherHead p) := by cases p <;> rfl
@[simp] theorem DpUnit.head_other_mapHead (u : DpUnit) (f : Head → Head) (p : HeadPos) :
    (u.mapHead f (otherHead p)).head p = u.head p := by cases p <;> rfl

/-! ### The condition set (R173 to R175) -/

@[simp] theorem mem_insertRanked {α : Type} {rank : α → Nat} {x y : α} {l : List α} : y ∈ insertRanked rank x l ↔ y = x ∨ y ∈ l := by
  induction l with
  | nil => simp [insertRanked]
  | cons z rest ih =>
    unfold insertRanked
    split
    · simp
    · simp [ih, or_left_comm]

@[simp] theorem length_insertRanked {α : Type} (rank : α → Nat) (x : α) (l : List α) : (insertRanked rank x l).length = l.length + 1 := by
  induction l with
  | nil => rfl
  | cons z rest ih =>
    unfold insertRanked
    split <;> simp [ih]

theorem hasCond_congr {s t : State} (h : t.conds = s.conds) (c : CondId) : hasCond t c = hasCond s c := by
  simp only [hasCond, h]

theorem hasCond_iff {s : State} {c : CondId} : hasCond s c = true ↔ ∃ e ∈ s.conds, e.id = c := by
  simp [hasCond]

/-- What a raise does to the set (R174): the entry that stands is kept, a new one enters where there is room or a lower-ranked one gives way, and else it
is left out. -/
theorem raiseCond_cases (c : CondId) (s : State) :
    (hasCond s c = true ∧ (raiseCond c s).conds.map (·.id) = s.conds.map (·.id))
      ∨ (hasCond s c = false ∧ s.conds.length < 31 ∧ (raiseCond c s).conds = insertRanked (fun e => e.id.rank) (condEntry s c) s.conds)
      ∨ (hasCond s c = false ∧ 31 ≤ s.conds.length ∧ ∃ last, s.conds.getLast? = some last ∧ c.rank < last.id.rank
          ∧ (raiseCond c s).conds = insertRanked (fun e => e.id.rank) (condEntry s c) s.conds.dropLast)
      ∨ (hasCond s c = false ∧ 31 ≤ s.conds.length ∧ raiseCond c s = s) := by
  unfold raiseCond
  split
  · rename_i hc
    refine .inl ⟨hc, ?_⟩
    split
    · simp only [List.map_map]
      refine List.map_congr_left fun e _ => ?_
      by_cases he : e.id = c <;> simp [he, condEntry]
    · rfl
  · rename_i hc
    have hc' : hasCond s c = false := by simpa using hc
    split
    · rename_i hl
      exact .inr (.inl ⟨hc', hl, putConds_conds _ _⟩)
    · rename_i hl
      split
      · exact .inr (.inr (.inr ⟨hc', by omega, rfl⟩))
      · rename_i last hlast
        split
        · rename_i hr
          exact .inr (.inr (.inl ⟨hc', by omega, last, hlast, hr, putConds_conds _ _⟩))
        · exact .inr (.inr (.inr ⟨hc', by omega, rfl⟩))

theorem hasCond_of_ids {s t : State} (h : t.conds.map (·.id) = s.conds.map (·.id)) (c : CondId) : hasCond t c = hasCond s c := by
  have hany (l : List CondEntry) : (l.any fun e => e.id == c) = (l.map (·.id)).any fun d => d == c := by
    rw [List.any_map]; rfl
  simp only [hasCond, hany, h]

@[simp] theorem raiseCond_dps (c : CondId) (s : State) : (raiseCond c s).dps = s.dps := raiseCond_kept c s .dps (by decide)
@[simp] theorem raiseCond_sections (c : CondId) (s : State) : (raiseCond c s).sections = s.sections := raiseCond_kept c s .sections (by decide)
@[simp] theorem raiseCond_peers (c : CondId) (s : State) : (raiseCond c s).peers = s.peers := raiseCond_kept c s .peers (by decide)
@[simp] theorem raiseCond_join (c : CondId) (s : State) : (raiseCond c s).join = s.join := raiseCond_kept c s .join (by decide)
@[simp] theorem raiseCond_latches (c : CondId) (s : State) : (raiseCond c s).latches = s.latches := raiseCond_kept c s .latches (by decide)
@[simp] theorem raiseCond_phase (c : CondId) (s : State) : (raiseCond c s).phase = s.phase := raiseCond_kept c s .phase (by decide)
@[simp] theorem raiseCond_cfg (c : CondId) (s : State) : (raiseCond c s).cfg = s.cfg := raiseCond_kept c s .cfg (by decide)
@[simp] theorem clearCond_dps (c : CondId) (s : State) : (clearCond c s).dps = s.dps := clearCond_kept c s .dps (by decide)
@[simp] theorem clearCond_sections (c : CondId) (s : State) : (clearCond c s).sections = s.sections := clearCond_kept c s .sections (by decide)
@[simp] theorem clearCond_peers (c : CondId) (s : State) : (clearCond c s).peers = s.peers := clearCond_kept c s .peers (by decide)
@[simp] theorem clearCond_join (c : CondId) (s : State) : (clearCond c s).join = s.join := clearCond_kept c s .join (by decide)
@[simp] theorem clearCond_phase (c : CondId) (s : State) : (clearCond c s).phase = s.phase := clearCond_kept c s .phase (by decide)
@[simp] theorem clearCond_cfg (c : CondId) (s : State) : (clearCond c s).cfg = s.cfg := clearCond_kept c s .cfg (by decide)
@[simp] theorem clearCond_clock (c : CondId) (s : State) : (clearCond c s).clock = s.clock := clearCond_kept c s .clock (by decide)

/-- A raised condition stands where the set has room (R174). -/
theorem hasCond_raiseCond {c : CondId} {s : State} (h : s.conds.length < 31) : hasCond (raiseCond c s) c = true := by
  rcases raiseCond_cases c s with ⟨hc, he⟩ | ⟨-, -, he⟩ | ⟨-, hl, -⟩ | ⟨-, hl, -⟩
  · rw [hasCond_of_ids he, hc]
  · rw [hasCond_iff, he]
    exact ⟨condEntry s c, mem_insertRanked.2 (.inl rfl), rfl⟩
  · omega
  · omega

/-- A condition stays through a raise of another where the set has room or the other ranks below it (R174). -/
theorem hasCond_raiseCond_of_hasCond {c d : CondId} {s : State} (h : s.conds.length < 31 ∨ d.rank ≤ c.rank) (hd : hasCond s d = true) :
    hasCond (raiseCond c s) d = true := by
  obtain ⟨e, he, hid⟩ := hasCond_iff.1 hd
  rcases raiseCond_cases c s with ⟨-, hs⟩ | ⟨-, -, hs⟩ | ⟨-, hl, last, hlast, hr, hs⟩ | ⟨-, -, hs⟩
  · rw [hasCond_of_ids hs, hd]
  · rw [hasCond_iff, hs]
    exact ⟨e, mem_insertRanked.2 (.inr he), hid⟩
  · rw [hasCond_iff, hs]
    refine ⟨e, mem_insertRanked.2 (.inr ?_), hid⟩
    have hne : e ≠ last := by
      rintro rfl
      rw [hid] at hr
      omega
    obtain ⟨ys, hys⟩ := List.getLast?_eq_some_iff.1 hlast
    rw [hys] at he ⊢
    simpa [hne] using he
  · rw [hs, hd]

theorem length_raiseCond_le (c : CondId) (s : State) : (raiseCond c s).conds.length ≤ s.conds.length + 1 := by
  rcases raiseCond_cases c s with ⟨-, he⟩ | ⟨-, -, he⟩ | ⟨-, -, -, -, -, he⟩ | ⟨-, -, he⟩
  · have := congrArg List.length he
    simp only [List.length_map] at this
    omega
  · simp [he]
  · simp [he]
  · simp [he]

theorem clearCond_conds (c : CondId) (s : State) : (clearCond c s).conds = s.conds.filter fun e => e.id ≠ c := by
  unfold clearCond
  split
  · exact putConds_conds _ _
  · rename_i hc
    refine (List.filter_eq_self.2 fun e he => ?_).symm
    simpa using fun h => hc (hasCond_iff.2 ⟨e, he, h⟩)

/-- A cleared condition stands no longer (R175). -/
theorem hasCond_clearCond (c : CondId) (s : State) : hasCond (clearCond c s) c = false := by
  simp [hasCond, clearCond_conds]

/-- No other condition goes with a cleared one. -/
theorem hasCond_clearCond_other {c d : CondId} (h : d ≠ c) (s : State) : hasCond (clearCond c s) d = hasCond s d := by
  rw [Bool.eq_iff_iff, hasCond_iff, hasCond_iff, clearCond_conds]
  constructor
  · rintro ⟨e, he, hid⟩
    exact ⟨e, (List.mem_filter.1 he).1, hid⟩
  · rintro ⟨e, he, hid⟩
    exact ⟨e, List.mem_filter.2 ⟨he, by simpa [hid] using h⟩, hid⟩

theorem length_clearCond_le (c : CondId) (s : State) : (clearCond c s).conds.length ≤ s.conds.length := by
  rw [clearCond_conds]
  exact List.length_filter_le _ _

theorem length_clearCond_lt {c : CondId} {s : State} (h : hasCond s c = true) : (clearCond c s).conds.length < s.conds.length := by
  obtain ⟨e, he, hid⟩ := hasCond_iff.1 h
  rw [clearCond_conds]
  exact List.length_filter_lt_length_iff_exists.2 ⟨e, he, by simpa using hid⟩

/-- Of two conditions of different kinds the one whose class and number are lower ranks higher (R173). -/
theorem condOf_rank_lt {k l : CondKind} (h : k.cls * 32 + k.num < l.cls * 32 + l.num) (a b x y : Nat) :
    (condOf k a x).rank < (condOf l b y).rank := by
  have h1 := (condOf k a x).subject.isLt
  have h2 := (condOf k a x).item.isLt
  simp only [CondId.rank, condOf] at *
  omega

end Sys2Proof.Machine
end

section
namespace Sys2Proof.Machine

/-! ### Section records under a change (R42, R52, R53) -/

theorem sectAt_id {s : State} {id : Nat} {r : Sect} (h : sectAt s id = some r) : r.id = id := by
  simpa using List.find?_some h

theorem sectAt_mem {s : State} {id : Nat} {r : Sect} (h : sectAt s id = some r) : r ∈ s.sections := List.mem_of_find?_eq_some h

theorem sectAt_eq_none {s : State} {id : Nat} : sectAt s id = none ↔ ∀ r ∈ s.sections, r.id ≠ id := by
  simp [sectAt]

/-- The table after a record has been put: every record of its id is replaced. -/
theorem putSect_sections {r b : Sect} {s : State} (h : sectAt s r.id = some b) :
    (putSect r s).sections = s.sections.map fun q => if q.id = r.id then r else q := by
  unfold putSect
  rw [h]
  dsimp only
  rw [(((sectConds_kept _ _ _ _).mono (m := [.conds, .notices, .phase]) (by decide)).trans (((islandCleared_kept _ _ _).mono (by decide)).trans
    (heldCleared_kept _ _ _)) : KeptBut _ _ _) .sections (by decide)]

@[simp] theorem Sect.stay_id {before after : Sect} (h : after.id = before.id) : (before.stay after).id = before.id := by
  rcases Sect.stay_cases before after with he | ⟨-, he⟩ | ⟨-, he⟩ <;> rw [he]
  exact h

theorem mapSect_of_none {id : Nat} {f : Sect → Sect} {s : State} (h : sectAt s id = none) : mapSect id f s = s := by
  unfold mapSect
  rw [h]

/-- A record of the table after a change of one id is an untouched one of another id or the changed one. -/
theorem mem_mapSect {id : Nat} {f : Sect → Sect} (hf : ∀ r, (f r).id = r.id) {s : State} {q : Sect} (h : q ∈ (mapSect id f s).sections) :
    (q ∈ s.sections ∧ q.id ≠ id) ∨ ∃ r, sectAt s id = some r ∧ q = if declaredLockout s then r.stay (f r) else f r := by
  cases hr : sectAt s id with
  | none =>
    rw [mapSect_of_none hr] at h
    exact .inl ⟨h, sectAt_eq_none.1 hr q h⟩
  | some r =>
    have hrid := sectAt_id hr
    simp only [mapSect, hr] at h
    have hid : (if declaredLockout s then r.stay (f r) else f r).id = id := by
      split <;> simp [hf, hrid]
    rw [putSect_sections (b := r) (by rw [hid]; exact hr), hid] at h
    obtain ⟨p, hp, hpq⟩ := List.mem_map.1 h
    split at hpq
    · exact .inr ⟨r, rfl, hpq.symm⟩
    · subst hpq
      exact .inl ⟨hp, ‹_›⟩

theorem Sect.disturb_id (r : Sect) : r.disturb.id = r.id := by unfold Sect.disturb; split <;> rfl

theorem Sect.disturb_state (r : Sect) : r.disturb.state = .disturbed := by
  unfold Sect.disturb
  split
  · assumption
  · rfl

theorem declaredLockout_congr {s t : State} (h : t.join = s.join) : declaredLockout t = declaredLockout s := by
  simp only [declaredLockout, h]

/-- Every record of some ids is DISTURBED. -/
def AllDisturbed (ids : List Nat) (s : State) : Prop := ∀ r ∈ s.sections, r.id ∈ ids → r.state = .disturbed

theorem AllDisturbed.congr {ids : List Nat} {s t : State} (h : t.sections = s.sections) (hs : AllDisturbed ids s) : AllDisturbed ids t := by
  unfold AllDisturbed
  rw [h]
  exact hs

/-- Outside declared lockout the records of one more id are DISTURBED, those that were stay so. -/
theorem allDisturbed_mapSect {ids : List Nat} {id : Nat} {s : State} (hl : declaredLockout s = false) (h : AllDisturbed ids s) :
    AllDisturbed (id :: ids) (mapSect id Sect.disturb s) := by
  intro q hq hid
  rcases mem_mapSect Sect.disturb_id hq with ⟨hm, hne⟩ | ⟨r, -, he⟩
  · exact h q hm (by simpa [hne] using hid)
  · rw [he, hl]
    exact Sect.disturb_state r

theorem allDisturbed_mapSects {ids done : List Nat} {s : State} (hl : declaredLockout s = false) (h : AllDisturbed done s) :
    AllDisturbed (ids ++ done) (mapSects ids Sect.disturb s) := by
  induction ids generalizing done s with
  | nil => exact h
  | cons id rest ih =>
    have hj : declaredLockout (mapSect id Sect.disturb s) = false := (declaredLockout_congr (mapSect_kept _ _ _ .join (by decide))).trans hl
    have hn := ih hj (allDisturbed_mapSect hl h)
    intro r hr hid
    refine hn r hr ?_
    simp only [List.mem_append, List.mem_cons] at hid ⊢
    tauto

/-- Outside declared lockout a faulted DP leaves every section it bounds DISTURBED (R53, R190). -/
theorem dpFaultsSections_disturbs {d : Nat} {s : State} (hl : declaredLockout s = false) :
    AllDisturbed (boundedBy d) (dpFaultsSections d s) := by
  have h := allDisturbed_mapSects (ids := boundedBy d) (done := []) hl (fun r _ hr => absurd hr (by simp))
  rwa [List.append_nil] at h

theorem boundedBy_length_le (d : Nat) : (boundedBy d).length ≤ 2 := by
  unfold boundedBy
  dsimp only
  split <;> simp

/-! ### The conditions that follow a section record -/

/-- The kinds of condition that the change of a section record may clear (R39, R42, R121). -/
def sectKinds : List CondKind := [.sectionUnknown, .sectionDisturbed, .lateArrival, .longClosure]

theorem hasCond_clearCond_kind {c d : CondId} (h : d.kind ≠ c.kind) (s : State) : hasCond (clearCond c s) d = hasCond s d :=
  hasCond_clearCond_other (fun he => h (congrArg CondId.kind he)) s

/-- A section's change of state raises one condition at most. -/
theorem length_sectConds_le (x y : SectState) (id : Nat) (s : State) : (sectConds x y id s).conds.length ≤ s.conds.length + 1 := by
  unfold sectConds
  split
  · omega
  · extract_lets s1 s2 s3
    have h1 : s1.conds.length ≤ s.conds.length := by
      unfold s1
      split
      · exact length_clearCond_le _ _
      · exact le_rfl
    have h2 : s2.conds.length ≤ s1.conds.length := by
      unfold s2
      split
      · exact length_clearCond_le _ _
      · exact le_rfl
    by_cases hy : y = .unknown
    · have h3 : s3.conds.length ≤ s2.conds.length + 1 := by
        unfold s3
        rw [if_pos hy]
        exact length_raiseCond_le _ _
      rw [if_neg (by rw [hy]; decide)]
      omega
    · have h3 : s3 = s2 := if_neg hy
      rw [h3]
      split
      · have := length_raiseCond_le (condOf .sectionDisturbed id 0) s2
        omega
      · omega

/-- With room in the set no condition but those of sections goes with a section's change of state. -/
theorem hasCond_sectConds {x y : SectState} {id : Nat} {s : State} {c : CondId} (hk : c.kind ∉ sectKinds) (hl : s.conds.length < 31)
    (hc : hasCond s c = true) : hasCond (sectConds x y id s) c = true := by
  simp only [sectKinds, List.mem_cons, not_or] at hk
  obtain ⟨hu, hd, -⟩ := hk
  unfold sectConds
  split
  · exact hc
  · extract_lets s1 s2 s3
    have h1 : hasCond s1 c = true ∧ s1.conds.length < 31 := by
      unfold s1
      split
      · exact ⟨(hasCond_clearCond_kind hu s).trans hc, (length_clearCond_le _ _).trans_lt hl⟩
      · exact ⟨hc, hl⟩
    have h2 : hasCond s2 c = true ∧ s2.conds.length < 31 := by
      unfold s2
      split
      · exact ⟨(hasCond_clearCond_kind hd s1).trans h1.1, (length_clearCond_le _ _).trans_lt h1.2⟩
      · exact h1
    by_cases hy : y = .unknown
    · have h3 : hasCond s3 c = true := by
        unfold s3
        rw [if_pos hy]
        exact hasCond_raiseCond_of_hasCond (.inl h2.2) h2.1
      rw [if_neg (by rw [hy]; decide)]
      exact h3
    · have h3 : s3 = s2 := if_neg hy
      rw [h3]
      split
      · exact hasCond_raiseCond_of_hasCond (.inl h2.2) h2.1
      · exact h2.1

theorem length_islandCleared_le (x y : Sect) (s : State) : (islandCleared x y s).conds.length ≤ s.conds.length := by
  unfold islandCleared
  split
  · exact (length_clearCond_le _ _).trans (length_clearCond_le _ _)
  · exact le_rfl

theorem hasCond_islandCleared {x y : Sect} {s : State} {c : CondId} (hk : c.kind ≠ .lateArrival) : hasCond (islandCleared x y s) c = hasCond s c := by
  unfold islandCleared
  split
  · exact (hasCond_clearCond_kind hk _).trans (hasCond_clearCond_kind hk _)
  · rfl

theorem length_heldCleared_le (x y : Sect) (s : State) : (heldCleared x y s).conds.length ≤ s.conds.length := by
  unfold heldCleared
  split
  · exact length_clearCond_le _ _
  · exact le_rfl

theorem hasCond_heldCleared {x y : Sect} {s : State} {c : CondId} (hk : c.kind ≠ .longClosure) : hasCond (heldCleared x y s) c = hasCond s c := by
  unfold heldCleared
  split
  · exact hasCond_clearCond_kind hk _
  · rfl

theorem length_putSect_le (r : Sect) (s : State) : (putSect r s).conds.length ≤ s.conds.length + 1 := by
  unfold putSect
  split
  · omega
  · exact ((length_heldCleared_le _ _ _).trans (length_islandCleared_le _ _ _)).trans (length_sectConds_le _ _ _ _)

theorem hasCond_putSect {r : Sect} {s : State} {c : CondId} (hk : c.kind ∉ sectKinds) (hl : s.conds.length < 31) (hc : hasCond s c = true) :
    hasCond (putSect r s) c = true := by
  have hk' := hk
  simp only [sectKinds, List.mem_cons, not_or] at hk'
  obtain ⟨-, -, hla, hlc, -⟩ := hk'
  unfold putSect
  split
  · exact hc
  · dsimp only
    rw [hasCond_heldCleared hlc, hasCond_islandCleared hla]
    exact hasCond_sectConds hk hl hc

theorem length_mapSect_le (id : Nat) (f : Sect → Sect) (s : State) : (mapSect id f s).conds.length ≤ s.conds.length + 1 := by
  unfold mapSect
  split
  · omega
  · exact length_putSect_le _ _

theorem hasCond_mapSect {id : Nat} {f : Sect → Sect} {s : State} {c : CondId} (hk : c.kind ∉ sectKinds) (hl : s.conds.length < 31)
    (hc : hasCond s c = true) : hasCond (mapSect id f s) c = true := by
  unfold mapSect
  split
  · exact hc
  · exact hasCond_putSect hk hl hc

theorem length_mapSects_le (ids : List Nat) (f : Sect → Sect) (s : State) : (mapSects ids f s).conds.length ≤ s.conds.length + ids.length := by
  induction ids generalizing s with
  | nil => exact le_rfl
  | cons id rest ih =>
    have h1 := ih (mapSect id f s)
    have h2 := length_mapSect_le id f s
    rw [List.length_cons]
    exact h1.trans (by omega)

theorem hasCond_mapSects {ids : List Nat} {f : Sect → Sect} {s : State} {c : CondId} (hk : c.kind ∉ sectKinds)
    (hl : s.conds.length + ids.length ≤ 31) (hc : hasCond s c = true) : hasCond (mapSects ids f s) c = true := by
  induction ids generalizing s with
  | nil => exact hc
  | cons id rest ih =>
    have h2 := length_mapSect_le id f s
    rw [List.length_cons] at hl
    exact ih (s := mapSect id f s) (by omega) (hasCond_mapSect hk (by omega) hc)

end Sys2Proof.Machine
end

section
namespace Sys2Proof.Machine

/-! ### What the handling of signals keeps (R106) -/

/-- No release can be made in the event (R119, R120): a station that is CLOSED has not had its release timer run out. -/
def ReleaseShut (s : State) : Prop := s.phase.phase = .closed → s.phase.releaseExpired = false

/-- A release that holds is not shut. -/
theorem ReleaseShut.not_holds {s : State} (h : ReleaseShut s) : releaseHolds s = false := by
  by_contra hn
  have ht : releaseHolds s = true := by simpa using hn
  simp only [releaseHolds, releaseTested, Bool.and_eq_true, beq_iff_eq] at ht
  obtain ⟨⟨⟨⟨hp, he⟩, -⟩, -⟩, -⟩ := ht
  rw [h hp] at he
  exact absurd he (by decide)

theorem seqHalt_phase (s : State) : (seqHalt s).phase = s.phase := seqHalt_kept s .phase (by decide)

@[simp] theorem condOf_kind (k : CondKind) (a x : Nat) : (condOf k a x).kind = k := rfl
@[simp] theorem ownCond_kind (s : State) (k : CondKind) (x : Nat) : (ownCond s k x).kind = k := rfl

/-- The kinds of condition that the handling of signals may clear: those of the barrier, the lamps and the sequencer. -/
def signalKinds : List CondKind := [.barrierStalled, .aspectFailed, .aspectDegraded, .sequenceError]

/-- The conditions that the handling of signals may raise outside a release. -/
def signalConds (own : Nat) : List CondId :=
  [condOf .aspectFailed own 0, condOf .aspectFailed own 1, condOf .aspectFailed own 2, condOf .aspectDegraded own 0, condOf .aspectDegraded own 1,
    condOf .aspectDegraded own 2, condOf .sequenceError own 0]

/-- A predicate over the condition set, the section table and the release mark that the handling of signals keeps: it looks at nothing else, and it
stays through the conditions that the handling may clear and raise and through a release. -/
structure SignalStable (I : State → Prop) : Prop where
  still : ∀ {s t : State}, t.conds = s.conds → t.sections = s.sections → t.cfg = s.cfg → (ReleaseShut s → ReleaseShut t) → I s → I t
  clears : ∀ {s : State} {c : CondId}, c.kind ∈ signalKinds → I s → I (clearCond c s)
  raises : ∀ {s : State} {c : CondId}, c ∈ signalConds s.cfg.own → I s → I (raiseCond c s)
  releases : ∀ {s : State}, releaseHolds s = true → I s → I (makeRelease s)

namespace SignalStable

theorem ite {I : State → Prop} {s : State} {f : State → State} {c : Prop} [Decidable c] (hs : I s) (hf : c → I (f s)) :
    I (if c then f s else s) := by
  split
  · exact hf ‹_›
  · exact hs

variable {I : State → Prop} (h : SignalStable I)
include h

/-- A change of other parts of the state keeps a stable predicate. -/
theorem kept {l : List Part} {s t : State} (hk : KeptBut l s t) (hl : ∀ p ∈ [Part.conds, .sections, .cfg, .phase], p ∉ l) (hs : I s) : I t :=
  h.still (hk .conds (hl _ (by decide))).1 (hk .sections (hl _ (by decide))) (hk .cfg (hl _ (by decide)))
    (by have hp : t.phase = s.phase := hk .phase (hl _ (by decide))
        simp only [ReleaseShut, hp, imp_self]) hs

theorem countChange {b : Bool} {s : State} (hs : I s) : I (countChange b s) := by
  refine h.still (countChange_conds b s) ?_ ?_ ?_ hs <;> unfold Machine.countChange <;> split <;> first | rfl | exact id

theorem aspectConds {x y : AspectState} {a : Aspect} {s : State} (hs : I s) : I (aspectConds x y a s) := by
  unfold Machine.aspectConds
  split
  · exact hs
  · extract_lets s1
    have h1 : I s1 ∧ s1.cfg = s.cfg := by
      unfold s1
      cases x
      · exact ⟨hs, rfl⟩
      · exact ⟨h.clears (by simp [signalKinds]) hs, clearCond_cfg _ _⟩
      · exact ⟨h.clears (by simp [signalKinds]) hs, clearCond_cfg _ _⟩
    cases y
    · exact h1.1
    · exact h.raises (by cases a <;> simp [signalConds, ownCond, aspectItem]) h1.1
    · exact h.raises (by cases a <;> simp [signalConds, ownCond, aspectItem]) h1.1

theorem discardResult {a : Aspect} {s : State} (hs : I s) : I (discardResult a s) :=
  h.aspectConds (h.kept (putLights_kept _ s) (by decide) hs)

theorem discardResults {s : State} (hs : I s) : I (discardResults s) := by
  unfold Machine.discardResults
  split
  · exact hs
  · exact List.foldlRecOn _ _ hs fun t ht a _ => ite ht fun _ => h.discardResult ht

theorem applyPattern {a : Bool} {r : RedField} {s : State} (hs : I s) : I (applyPattern a r s) :=
  h.kept (putLights_kept _ _) (by decide) (h.discardResults (h.kept (putLights_kept _ s) (by decide) hs))

/-- A change of the barrier's record alone. -/
theorem putBarrier {b : BarrierUnit} {s : State} (hs : I s) : I { s with barrier := b } := h.still (s := s) rfl rfl rfl id hs

/-- A change of the sequencer's record alone. -/
theorem putSeq {q : SeqUnit} {s : State} (hs : I s) : I { s with seq := q } := h.still (s := s) rfl rfl rfl id hs

/-- A change of the phase unit that leaves the release shut where it was. -/
theorem putPhase {u : PhaseUnit} {s : State} (hu : ReleaseShut s → u.phase = .closed → u.releaseExpired = false) (hs : I s) : I { s with phase := u } :=
  h.still (s := s) rfl rfl rfl hu hs

theorem barrierSettle {s : State} (hs : I s) : I (barrierSettle s).1 := by
  unfold Machine.barrierSettle
  split
  · extract_lets b st s1
    split
    · exact h.putBarrier hs
    · exact ite (h.putBarrier hs) fun _ => h.clears (s := s1) (by simp [signalKinds]) (h.putBarrier hs)
  · exact hs

theorem handCommand {c : BarrierCmd} {s : State} (hs : I s) : I (handCommand c s).1 := h.countChange (h.barrierSettle (h.putBarrier hs))

theorem handField {f : BarrierField} {s : State} (hs : I s) : I (handField f s).1 := by
  cases f
  · exact hs
  · exact h.handCommand hs
  · exact h.handCommand hs
  · exact h.handCommand hs

theorem beginStep {i : Nat} {st : StepRec} {s : State} (hs : I s) : I (beginStep i st s).1 := by
  have h1 := h.handField (f := st.barrier) (h.applyPattern (a := st.amber) (r := st.red)
    (h.putSeq (q := { s.seq with step := some i, stepStart := s.clock.ms, waitStart := none }) hs))
  simp only [Machine.beginStep, Work.andThen]
  split
  · exact h.putSeq h1
  · exact h1

theorem endRun {how : EndHow} {s : State} (hs : I s) : I (endRun how s).1 := by
  unfold Machine.endRun
  cases how
  · exact h.clears (s := { s with seq := s.seq.ended .done }) (by simp [signalKinds]) (h.putSeq hs)
  · exact h.putSeq hs
  · exact h.putSeq hs
  · exact h.raises (s := { s with seq := s.seq.ended .error }) (by simp [signalConds, ownCond]) (h.putSeq hs)

theorem judgeStep {fuel : Nat} {s : State} (hs : I s) : I (judgeStep fuel s).1 := by
  induction fuel generalizing s with
  | zero => exact hs
  | succ n ih =>
    unfold Machine.judgeStep
    repeat' split
    all_goals first
      | exact hs
      | exact h.endRun hs
      | exact h.putSeq hs
      | exact ih (h.beginStep hs)

theorem seqStart {l : ListName} {s : State} (hs : I s) : I (seqStart l s).1 := by
  unfold Machine.seqStart
  split
  · exact hs
  · dsimp only
    split
    · exact h.putSeq hs
    · exact h.judgeStep (h.beginStep (h.putSeq hs))

theorem seqHalt {s : State} (hs : I s) : I (seqHalt s) := h.kept (seqHalt_kept s) (by decide) hs

theorem seqStop {s : State} (hs : I s) : I (seqStop s).1 := by
  unfold Machine.seqStop
  split
  · exact h.handCommand (h.putSeq hs)
  · exact hs

theorem defer {l : Option ListName} {s : State} (hs : I s) : I (defer l s) := h.putPhase id hs

theorem seqRequests {s : State} (hs : I s) : I (seqRequests s).1 := by
  unfold Machine.seqRequests
  repeat' split
  all_goals first
    | exact hs
    | exact h.defer hs
    | exact h.seqStart (h.defer hs)
    | exact h.seqStart (h.seqStop (h.defer hs))

/-- A move leaves the release mark cleared (R119). -/
theorem movePhase {p : Phase} {s : State} (hs : I s) : I (movePhase p s).1 := by
  have h1 : I (Machine.countChange true { s with phase := s.phase.enter s.clock.ms (islandsClear s) p }) :=
    h.countChange (h.putPhase (fun _ _ => rfl) hs)
  have h2 : I (if p = .failed then firstFaultTrigger s.phase.phase
      (Machine.countChange true { s with phase := s.phase.enter s.clock.ms (islandsClear s) p })
      else Machine.countChange true { s with phase := s.phase.enter s.clock.ms (islandsClear s) p }) :=
    ite (f := firstFaultTrigger s.phase.phase) h1 fun _ => h.kept (firstFaultTrigger_kept _ _) (by decide) h1
  exact h.kept (judgeDcis_kept _) (by decide) (h.seqRequests (h.barrierSettle h2))

theorem releaseUpkeep {s : State} (hs : I s) : I (releaseUpkeep s) := by
  unfold Machine.releaseUpkeep
  repeat' split
  · exact hs
  · exact h.putPhase id hs
  · exact hs
  · exact h.putPhase (fun _ _ => rfl) hs

theorem noteStanding {s : State} (hs : I s) : I (noteStanding s) := by
  unfold Machine.noteStanding
  split
  · refine List.foldlRecOn _ _ hs fun t ht r _ => ?_
    repeat' split
    · exact ht
    · exact ht
    · exact h.putPhase id ht
  · exact hs

theorem evaluate {fuel : Nat} {s : State} (hs : I s) : I (evaluate fuel s).1 := by
  induction fuel generalizing s with
  | zero => exact hs
  | succ n ih =>
    have h1 := h.releaseUpkeep hs
    have h2 := h.noteStanding h1
    unfold Machine.evaluate
    dsimp only
    split
    · exact ih (h.releases ‹_› h1)
    · split
      · exact h2
      · exact h.putPhase (s := Machine.seqHalt _) (by rw [ReleaseShut, seqHalt_phase]; exact id) (h.seqHalt h2)
      · exact ih (h.movePhase h2)

theorem haltedEnd {s : State} (hs : I s) : I (haltedEnd s).1 := by
  have h1 := h.evaluate (fuel := moveFuel) (h.putPhase (u := { s.phase with haltPending := false }) id hs)
  simp only [Machine.haltedEnd, Work.andThen]
  split
  · exact h.seqStart h1
  · exact h1

theorem otherEnd {s : State} (hs : I s) : I (otherEnd s).1 := by
  have h1 := h.evaluate (fuel := moveFuel) hs
  simp only [Machine.otherEnd, Work.andThen]
  repeat' split
  · exact h1
  · exact h.seqStart (h.defer h1)
  · exact h1

theorem handleSig {sig : Sig} {s : State} (hs : I s) : I (handleSig sig s).1 := by
  cases sig with
  | evaluate => exact h.evaluate hs
  | judge => exact h.judgeStep hs
  | enteredJoined =>
    show I (if s.phase.phase = .starting then (Machine.movePhase .failed s).andThen (Machine.evaluate moveFuel) else (s, [])).1
    split
    · exact h.evaluate (h.movePhase hs)
    · exact hs
  | seqEnded how =>
    have he : I (if s.phase.haltPending then Machine.haltedEnd s else Machine.otherEnd s).1 := by
      split
      · exact h.haltedEnd hs
      · exact h.otherEnd hs
    cases how
    · exact h.otherEnd hs
    · exact he
    · exact h.otherEnd hs
    · exact he

/-- What is stable stays through the handling of an event's signals. -/
theorem drain {fuel : Nat} {sigs : List Sig} {s : State} (hs : I s) : I (drain fuel sigs s) := by
  induction fuel generalizing sigs s with
  | zero => exact hs
  | succ n ih =>
    cases sigs with
    | nil => exact hs
    | cons sig rest => exact ih (h.handleSig hs)

/-- What is stable and holds after the work of an event holds at its end. -/
theorem event {dt : Nat} {s : State} {f : State → Work} (hp : s.powered = true) (hs : I (f (advance dt s)).1) : I (event dt s f) := by
  rw [event_eq hp]
  exact h.kept (conclude_kept _ _) (by decide) (h.drain hs)

end SignalStable

/-! ### Work handed on to the end of an event -/

/-- The signals and the conclusion of an event leave alone what is in none of the parts that follow every event. -/
theorem event_kept_work {dt : Nat} {s : State} {f : State → Work} (hp : s.powered = true) :
    KeptBut followedParts (f (advance dt s)).1 (event dt s f) := by
  rw [event_eq hp]
  exact ((drain_kept _ _ _).mono (by decide)).trans ((conclude_kept _ _).mono (by decide))

theorem dpAt_event {dt : Nat} {s : State} {f : State → Work} (hp : s.powered = true) (slot : Slot) :
    dpAt (event dt s f) slot = dpAt (f (advance dt s)).1 slot := dpAt_congr (event_kept_work hp .dps (by decide)) slot

theorem event_latches {dt : Nat} {s : State} {f : State → Work} (hp : s.powered = true) : (event dt s f).latches = (f (advance dt s)).1.latches :=
  event_kept_work hp .latches (by decide)

theorem event_port {dt : Nat} {s : State} {f : State → Work} (hp : s.powered = true) : (event dt s f).port = (f (advance dt s)).1.port :=
  event_kept_work hp .port (by decide)

theorem event_join {dt : Nat} {s : State} {f : State → Work} (hp : s.powered = true) : (event dt s f).join = (f (advance dt s)).1.join :=
  event_kept_work hp .join (by decide)

/-- Work on the records of detection points alone is followed by nothing but the conclusion. -/
theorem event_putDp {dt : Nat} {s : State} {v : DpUnit} {f : State → Work} (hp : s.powered = true) (hf : f (advance dt s) = (putDp v (advance dt s), [])) :
    Concluded (putDp v (advance dt s)) (event dt s f) := event_concluded hp hf rfl rfl rfl

/-- A condition set that work leaves with neither a section nor a peer changed stands at the end of the event. -/
theorem hasCond_event_quiet {dt : Nat} {s s1 : State} {f : State → Work} (hp : s.powered = true) (hf : f (advance dt s) = (s1, []))
    (hs : s1.sections = (advance dt s).sections) (hpe : s1.peers = (advance dt s).peers) (c : CondId) : hasCond (event dt s f) c = hasCond s1 c := by
  rw [event_quiet hp hf hs hpe]
  exact hasCond_congr (conclude_kept _ _ .conds (by decide)).1 c

theorem plain_apply (f : State → State) (s : State) : plain f s = (f s, []) := rfl

theorem guarded_apply {c : State → Bool} {f : State → Work} {s : State} (h : c s = true) : guarded c f s = f s := by
  rw [guarded, if_pos h]

end Sys2Proof.Machine
end

section
namespace Sys2Proof.Machine

/-! ### The release (R58, R121) and what stays through it -/

/-- The held flag is all that the request of the phase unit changes of a section: no condition follows it. -/
theorem mapSect_hold {id : Nat} {r : Sect} {s : State} (h : sectAt s id = some r) :
    mapSect id Sect.hold s = { s with sections := s.sections.map fun q => if q.id = r.id then r.hold else q } := by
  have hstay : (if declaredLockout s then r.stay r.hold else r.hold) = r.hold := by
    split
    · exact if_pos rfl
    · rfl
  have hat : sectAt s r.hold.id = some r := by rw [← sectAt_id h] at h; exact h
  simp only [mapSect, h, hstay, putSect, hat]
  simp [sectConds, islandCleared, heldCleared, Sect.hold, -List.map_inj_left]
  rfl

theorem releaseOne_conds (s : State) (id : Nat) :
    ∃ t, t.conds = s.conds ∧ (releaseOne s id).conds = (raiseCond (condOf .longClosure id 0) t).conds := by
  refine ⟨mapSect id Sect.hold s, ?_, rfl⟩
  cases h : sectAt s id with
  | none => rw [mapSect_of_none h]
  | some r => rw [mapSect_hold h]

/-- A condition that ranks above LONG_CLOSURE stays through a release. -/
theorem hasCond_makeRelease {c : CondId} {s : State} (hr : ∀ id, c.rank ≤ (condOf .longClosure id 0).rank) (hc : hasCond s c = true) :
    hasCond (makeRelease s) c = true := by
  refine List.foldlRecOn (motive := fun t => hasCond t c = true) _ _ hc fun t ht id _ => ?_
  obtain ⟨v, hv, he⟩ := releaseOne_conds t id
  rw [hasCond_congr he]
  exact hasCond_raiseCond_of_hasCond (.inr (hr id)) ((hasCond_congr hv c).trans ht)

/-- DISTURBED sections stay so through a release. -/
theorem AllDisturbed.makeRelease {ids : List Nat} {s : State} (h : AllDisturbed ids s) : AllDisturbed ids (makeRelease s) := by
  refine List.foldlRecOn _ _ h fun t ht id _ => ?_
  have hsec : (releaseOne t id).sections = (mapSect id Sect.hold t).sections := raiseCond_sections _ _
  refine AllDisturbed.congr hsec ?_
  intro q hq hid
  rcases mem_mapSect (f := Sect.hold) (fun _ => rfl) hq with ⟨hm, -⟩ | ⟨r, hr, he⟩
  · exact ht q hm hid
  · have hqr : q = r.hold := by
      rw [he]
      split
      · exact if_pos rfl
      · rfl
    rw [hqr] at hid ⊢
    exact ht r (sectAt_mem hr) hid

/-- DISTURBED sections stay so through the handling of signals: only a release changes a record. -/
theorem allDisturbed_stable (ids : List Nat) : SignalStable (AllDisturbed ids) where
  still _ hs _ _ h := h.congr hs
  clears _ h := h.congr (clearCond_sections _ _)
  raises _ h := h.congr (raiseCond_sections _ _)
  releases _ h := h.makeRelease

/-- DP_FAULTED stays through the handling of signals: it ranks above whatever that raises (R173). -/
theorem dpFaulted_stable (d : Nat) : SignalStable fun s => hasCond s (condOf .dpFaulted d 0) = true where
  still hc _ _ _ h := (hasCond_congr hc _).trans h
  clears hk h := (hasCond_clearCond_kind (fun he => by rw [← he] at hk; revert hk; simp [signalKinds]) _).trans h
  raises hm h := by
    refine hasCond_raiseCond_of_hasCond (.inr (Nat.le_of_lt ?_)) h
    simp only [signalConds, List.mem_cons, List.not_mem_nil, or_false] at hm
    rcases hm with rfl | rfl | rfl | rfl | rfl | rfl | rfl <;> exact condOf_rank_lt (by decide) _ _ _ _
  releases _ h := hasCond_makeRelease (fun _ => (condOf_rank_lt (by decide) _ _ _ _).le) h

/-! ### States of a detection point (R17 to R19) -/

/-- A change between states other than FAULTED is the record's alone. -/
theorem setDpState_quiet {slot : Slot} {st : DpState} {s : State} {u : DpUnit} (h : dpAt s slot = some u) (hu : u.state ≠ .faulted)
    (hst : st ≠ .faulted) : setDpState slot st s = putDp { u with state := st } s := by
  simp [setDpState, h, hst, hu]

/-- The entry into FAULTED raises DP_FAULTED and disturbs the sections (R18, R53). -/
theorem setDpState_faulted {slot : Slot} {s : State} {u : DpUnit} (h : dpAt s slot = some u) (hu : u.state ≠ .faulted) :
    setDpState slot .faulted s = dpFaultsSections u.id (raiseCond (condOf .dpFaulted u.id 0) (putDp { u with state := .faulted } s)) := by
  simp [setDpState, h, hu]

/-- The departure from FAULTED clears DP_FAULTED (R18). -/
theorem setDpState_unfaulted {slot : Slot} {st : DpState} {s : State} {u : DpUnit} (h : dpAt s slot = some u) (hu : u.state = .faulted)
    (hst : st ≠ .faulted) : setDpState slot st s = clearCond (condOf .dpFaulted u.id 0) (putDp { u with state := st } s) := by
  simp [setDpState, h, hst, hu, hst.symm]

/-- A DP reads the state it has been given, and nothing else of its record has changed. -/
theorem dpAt_setDpState {slot : Slot} {s : State} {u : DpUnit} (st : DpState) (h : dpAt s slot = some u) :
    dpAt (setDpState slot st s) slot = some { u with state := st } := by
  have hput : dpAt (putDp { u with state := st } s) slot = some { u with state := st } := dpAt_putDp h rfl
  simp only [setDpState, h]
  repeat' split
  · exact hput
  · rw [dpAt_congr (((raiseCond_kept _ _).mono (by decide)).trans (dpFaultsSections_kept _ _) .dps (by decide)) slot]
    exact hput
  · rw [dpAt_congr (clearCond_dps _ _) slot]
    exact hput
  · exact hput

/-- With room in the condition set DP_FAULTED stands after the entry into FAULTED. -/
theorem hasCond_setDpState_faulted {slot : Slot} {s : State} {u : DpUnit} (h : dpAt s slot = some u) (hu : u.state ≠ .faulted)
    (hl : s.conds.length ≤ 28) : hasCond (setDpState slot .faulted s) (condOf .dpFaulted u.id 0) = true := by
  rw [setDpState_faulted h hu]
  have h1 := length_raiseCond_le (condOf .dpFaulted u.id 0) (putDp { u with state := .faulted } s)
  have h2 := boundedBy_length_le u.id
  rw [putDp_conds] at h1
  exact hasCond_mapSects (by simp [sectKinds]) (by omega) (hasCond_raiseCond (by rw [putDp_conds]; omega))

/-- Outside declared lockout the entry into FAULTED leaves the DP's sections DISTURBED. -/
theorem setDpState_faulted_disturbs {slot : Slot} {s : State} {u : DpUnit} (h : dpAt s slot = some u) (hu : u.state ≠ .faulted)
    (hl : declaredLockout s = false) : AllDisturbed (boundedBy u.id) (setDpState slot .faulted s) := by
  rw [setDpState_faulted h hu]
  refine dpFaultsSections_disturbs ?_
  exact (declaredLockout_congr (raiseCond_kept _ _ .join (by decide))).trans hl

@[simp] theorem Head.markLevel_threshold (h : Head) : h.markLevel.threshold = h.threshold := by unfold Head.markLevel; split <;> rfl
@[simp] theorem Head.markLevel_covered (h : Head) : h.markLevel.covered = h.covered := by unfold Head.markLevel; split <;> rfl
@[simp] theorem Head.markLevel_levelTaken (h : Head) : h.markLevel.levelTaken = h.levelTaken := by unfold Head.markLevel; split <;> rfl
@[simp] theorem Head.markLevel_supply (h : Head) : h.markLevel.supply = h.supply := by unfold Head.markLevel; split <;> rfl

@[simp] theorem DpUnit.reload_head (now : Time) (u : DpUnit) (p : HeadPos) : (u.reload now).head p = (u.head p).markLevel := by cases p <;> rfl

/-- A DP that is not FAULTED enters WORKING with no other part of the state changed. -/
theorem dpWorks_quiet {slot : Slot} {s : State} {u : DpUnit} (h : dpAt s slot = some u) (hu : u.state ≠ .faulted) :
    dpWorks slot s = putDp { u.reload s.clock.us with state := .working } s := by
  have hr : dpAt (putDp (u.reload s.clock.us) s) slot = some (u.reload s.clock.us) := dpAt_putDp h rfl
  simp only [dpWorks, h]
  rw [setDpState_quiet hr hu (by decide), putDp_withState]

/-- A FAULTED DP that enters WORKING takes its DP_FAULTED with it. -/
theorem dpWorks_unfaulted {slot : Slot} {s : State} {u : DpUnit} (h : dpAt s slot = some u) (hu : u.state = .faulted) :
    dpWorks slot s = clearCond (condOf .dpFaulted u.id 0) (putDp { u.reload s.clock.us with state := .working } s) := by
  have hr : dpAt (putDp (u.reload s.clock.us) s) slot = some (u.reload s.clock.us) := dpAt_putDp h rfl
  simp only [dpWorks, h]
  rw [setDpState_unfaulted hr hu (by decide), putDp_withState]
  rfl

end Sys2Proof.Machine
end

section
/-! ## The head's filter, accepted edges and unordered pairs (R3, R5, R14 to R16) -/

namespace Sys2Proof.Machine

theorem Head.reads_of_threshold {h : Head} {t : Nat} (ht : h.threshold = some t) (level : Nat) : h.reads level = decide (level < t) := by
  simp [Head.reads, ht]

/-- A sample that agrees with the filtered level empties the run. -/
theorem Head.sample_of_agrees {h : Head} {n level : Nat} {now : Time} (ha : h.reads level = h.covered) :
    h.sample n now level = some { h with run := 0 } := by
  simp [Head.sample, ha]

/-- A differing sample that is not yet the N-th joins the run. -/
theorem Head.sample_of_differs {h : Head} {n level : Nat} {now : Time} (hd : h.reads level ≠ h.covered) (hn : h.run + 1 < n) :
    h.sample n now level = some { h with run := h.run + 1, runStart := if h.run = 0 then now else h.runStart } := by
  simp [Head.sample, hd, hn]

theorem DpUnit.mapHead_const (u : DpUnit) (f : Head → Head) (p : HeadPos) : u.mapHead (fun _ => f (u.head p)) p = u.mapHead f p := by
  cases p <;> rfl

/-- A comparator sample at a filtered head is its step of the filter. -/
theorem takeSample_eq {slot : Slot} {p : HeadPos} {level : Nat} {s : State} {u : DpUnit} {f : Head → Head} (hu : dpAt s slot = some u)
    (hf : u.filtered p = true) (hs : (u.head p).sample s.cfg.timing.filterLength s.clock.us level = some (f (u.head p))) :
    takeSample slot p level s = putDp (u.mapHead f p) s := by
  simp only [takeSample, hu, hf, if_true, hs, DpUnit.mapHead_const]

/-- Settles O15: the two outcomes of `Head.sample` short of the N-th differing sample, each put at its head. -/
theorem sampleMovesThePendingRun : Obligations.SampleMovesThePendingRun := by
  intro dt slot p level th s u hp hu hf hth
  have hr := Head.reads_of_threshold hth level
  have hu' : dpAt (advance dt s) slot = some u := hu
  constructor
  · intro ha
    exact ⟨_, rfl, event_putDp hp (congrArg (·, []) (takeSample_eq hu' hf (Head.sample_of_agrees (hr.trans ha))))⟩
  · intro hd hn
    exact ⟨_, rfl, event_putDp hp (congrArg (·, []) (takeSample_eq hu' hf (Head.sample_of_differs (hr ▸ hd) hn)))⟩

/-! ### Accepted edges -/

/-- An accepted edge flips the level, empties the run and sets the flag of its edge (R3, R5). -/
theorem Head.accept_eq (h : Head) :
    h.accept = { h with covered := !h.covered, run := 0, coverSeen := h.coverSeen || !h.covered, clearSeen := h.clearSeen || h.covered } := by
  cases hc : h.covered <;> simp [Head.accept, Head.markEdge, hc]

theorem edgeAt_of_differs {s : State} {u : DpUnit} {p : HeadPos} {level th : Nat} (hf : u.filtered p = true) (hth : (u.head p).threshold = some th)
    (hd : decide (level < th) ≠ (u.head p).covered) (hn : s.cfg.timing.filterLength ≤ (u.head p).run + 1) : edgeAt s u p level = true := by
  simp [edgeAt, hf, Head.reads_of_threshold hth, hd, hn]

/-- The operand of ACCEPTED_EDGE for one head. -/
def oneHead (p q : HeadPos) (level : Nat) : Option Nat := if p = q then some level else none

theorem edgesAt_one {s : State} {slot : Slot} {u : DpUnit} {p : HeadPos} {level : Nat} (hu : dpAt s slot = some u) (he : edgeAt s u p level = true) :
    edgesAt s slot (oneHead p .first level) (oneHead p .second level) = true := by
  cases p <;> simp [edgesAt, oneHead, hu, he]

/-- The move of the recogniser for an accepted edge of one head of a DP (R14). -/
def edgeMove (now : Time) (u : DpUnit) (p : HeadPos) : Recognised :=
  u.recog.edge now (u.head p).runStart p (!(u.head p).covered) (u.mapHead Head.accept p).headsClear

theorem takeEdges_one {s : State} {slot : Slot} {u : DpUnit} {p : HeadPos} {level : Nat} (hu : dpAt s slot = some u) :
    takeEdges slot (oneHead p .first level).isSome (oneHead p .second level).isSome s
      = if u.state = .working then takeMove (u.mapHead Head.accept p) (edgeMove s.clock.us u p) s else putDp (u.mapHead Head.accept p) s := by
  have hc : (u.mapHead Head.accept p).head p = (u.head p).accept := DpUnit.head_mapHead_same _ _ _
  have hcov : (u.head p).accept.covered = !(u.head p).covered := by rw [Head.accept_eq]
  by_cases hw : u.state = .working <;> cases p <;>
    simp_all [takeEdges, oneHead, edgeMove, DpUnit.mapHead, DpUnit.head]

/-- ACCEPTED_EDGE of one head whose sample is the N-th differing one is the taking of its edge. -/
theorem exec_acceptedEdge_one {dt : Nat} {slot : Slot} {p : HeadPos} {level th : Nat} {s : State} {u : DpUnit} (hu : dpAt s slot = some u)
    (hf : u.filtered p = true) (hth : (u.head p).threshold = some th) (hd : decide (level < th) ≠ (u.head p).covered)
    (hn : s.cfg.timing.filterLength ≤ (u.head p).run + 1) :
    ∃ f, exec (.acceptedEdge dt slot (if p = .first then some level else none) (if p = .second then some level else none)) s = .next (event dt s f)
      ∧ f (advance dt s) = (if u.state = .working then takeMove (u.mapHead Head.accept p) (edgeMove (advance dt s).clock.us u p) (advance dt s)
          else putDp (u.mapHead Head.accept p) (advance dt s), []) := by
  have hu' : dpAt (advance dt s) slot = some u := hu
  refine ⟨_, rfl, ?_⟩
  rw [guarded_apply (edgesAt_one hu' (edgeAt_of_differs hf hth hd hn)), plain_apply, ← takeEdges_one (level := level) hu']
  rfl

/-- A move that counts no axle is the recogniser's alone. -/
theorem takeMove_uncounted {u : DpUnit} {m : Recognised} {s : State} (hm : m.2 = none) : takeMove u m s = putDp { u with recog := m.1 } s := by
  simp [takeMove, hm]

/-- Settles O16: one head's edge, split by the DP's state; the record that the statement writes out is `Head.accept` at the head. -/
theorem acceptedEdgeFlipsTheLevel : Obligations.AcceptedEdgeFlipsTheLevel := by
  intro dt slot p level th s u u1 hp hu hf hth hd hn hu1
  have hu1' : u1 = u.mapHead Head.accept p := by rw [hu1, funext Head.accept_eq]
  obtain ⟨f, hex, hfa⟩ := exec_acceptedEdge_one (dt := dt) hu hf hth hd hn
  rw [hu1']
  constructor
  · intro hw
    rw [if_neg hw] at hfa
    exact ⟨_, hex, event_putDp hp hfa⟩
  · intro m hm hw hnone
    have hmove : m = edgeMove (advance dt s).clock.us u p := hm
    rw [if_pos hw, ← hmove, takeMove_uncounted hnone] at hfa
    exact ⟨_, hex, event_putDp hp hfa⟩

/-! ### Unordered pairs -/

theorem joinHistory_eq {l : List Time} {t : Time} (hl : l.length ≤ 3) : joinHistory l t = (l ++ [t]).drop (l.length - 2) := by
  unfold joinHistory
  split
  · rw [show l.length - 2 = 0 by omega, List.drop_zero]
  · rw [show l.length - 2 = 1 by omega, List.drop_append_of_le_length (by omega)]

theorem historyFull_iff {l : List Time} {a t : Time} (hl : l.length = 3) (ha : l.head? = some a) (ht : l.getLast? = some t) :
    historyFull l = decide ((t - a).toNat < 60000) := by
  match l, hl with
  | [x, y, z], _ =>
    simp only [List.head?_cons, Option.some.injEq] at ha
    simp only [List.getLast?_cons_cons, List.getLast?_singleton, Option.some.injEq] at ht
    simp [historyFull, ha, ht]

theorem historyFull_short {l : List Time} (hl : l.length < 3) : historyFull l = false := by
  match l, hl with
  | [], _ => rfl
  | [_], _ => rfl
  | [_, _], _ => rfl

/-- A DP after both its levels have flipped together (R15): no axle, the recogniser as an unordered event leaves it. -/
def DpUnit.unordered (u : DpUnit) : DpUnit :=
  { u with first := u.first.accept, second := u.second.accept, recog := u.recog.unorder u.first.runStart u.first.covered }

/-- The pair that leaves both heads alike is an unordered event (R15). -/
theorem takeEdges_pair {s : State} {slot : Slot} {u : DpUnit} (hu : dpAt s slot = some u) (hw : u.state = .working)
    (hc : u.first.covered = u.second.covered) (hr : u.recog.state ≠ .unordered) :
    takeEdges slot true true s = unorderedEvent slot u.first.runStart (putDp u.unordered s) := by
  have hclear : (!u.first.accept.covered && !u.second.accept.covered) = u.first.covered := by simp [Head.accept_eq, ← hc]
  have hout : pairOutcome u.recog.state u.first.accept.covered u.second.accept.covered = .unorderedEvent := by
    unfold pairOutcome
    split
    · exact absurd ‹_› hr
    · simp [Head.accept_eq, hc]
  have hnw : ¬u.state ≠ .working := not_not.2 hw
  simp only [takeEdges, hu, if_neg hnw, if_true, and_self, hout, DpUnit.headsClear, hclear]
  rfl

/-- The unordered event of a DP with its history joined (R16, R18). -/
theorem unorderedEvent_eq {s : State} {slot : Slot} {u : DpUnit} (hu : dpAt s slot = some u) (t : Time) :
    unorderedEvent slot t s =
      if historyFull (joinHistory u.history (msAt s t)) then
        setDpState slot .faulted (putDp { u with history := [], unorderedCause := true } (setLatch .unorderedSeen s))
      else putDp { u with history := joinHistory u.history (msAt s t) } (setLatch .unorderedSeen s) := by
  have hu' : dpAt (setLatch .unorderedSeen s) slot = some u := hu
  simp only [unorderedEvent, hu']
  rfl

/-- What an event leaves of a DP that its work has made FAULTED (R18, R53, R190). -/
theorem event_faulted {dt : Nat} {s s1 w : State} {slot : Slot} {u : DpUnit} {f : State → Work} (hp : s.powered = true)
    (hf : (f (advance dt s)).1 = w) (hw : KeptBut [.port] (setDpState slot .faulted s1) w) (hu : dpAt s1 slot = some u) (hu' : u.state ≠ .faulted)
    (hl : s1.conds.length ≤ 28) :
    dpAt (event dt s f) slot = some { u with state := .faulted } ∧ hasCond (event dt s f) (condOf .dpFaulted u.id 0) = true
      ∧ (declaredLockout s1 = false → AllDisturbed (boundedBy u.id) (event dt s f)) := by
  subst hf
  refine ⟨?_, ?_, fun hd => ?_⟩
  · rw [dpAt_event hp, dpAt_congr (hw .dps (by decide))]
    exact dpAt_setDpState .faulted hu
  · refine (dpFaulted_stable u.id).event hp ?_
    rw [hasCond_congr (hw .conds (by decide)).1]
    exact hasCond_setDpState_faulted hu hu' hl
  · exact (allDisturbed_stable _).event hp ((setDpState_faulted_disturbs hu hu' hd).congr (hw .sections (by decide)))

/-- A history of less than three events, or of three that span 60 s or more, is not full (R16). -/
theorem historyFull_of_span {l : List Time} {t : Time} (hl : l.length ≤ 3) (ht : l.getLast? = some t)
    (h : l.length < 3 ∨ ∃ a, l.head? = some a ∧ 60000 ≤ (t - a).toNat) : historyFull l = false := by
  rcases Nat.lt_or_eq_of_le hl with hlt | h3
  · exact historyFull_short hlt
  · obtain ⟨a, ha, hage⟩ := h.resolve_left (by omega)
    rw [historyFull_iff h3 ha ht]
    exact decide_eq_false (by omega)

theorem edgesAt_both {s : State} {slot : Slot} {u : DpUnit} {l1 l2 : Nat} (hu : dpAt s slot = some u) (h1 : edgeAt s u .first l1 = true)
    (h2 : edgeAt s u .second l2 = true) : edgesAt s slot (some l1) (some l2) = true := by
  simp [edgesAt, hu, h1, h2]

/-- The work of a pair that is an unordered event, by whether the joined history `h` is full (R15, R16). -/
theorem takeEdges_unordered {s : State} {slot : Slot} {u : DpUnit} {h : List Time} (hu : dpAt s slot = some u) (hw : u.state = .working)
    (hc : u.first.covered = u.second.covered) (hr : u.recog.state ≠ .unordered) (hlen : u.history.length ≤ 3)
    (hh : h = (u.history ++ [msAt s u.first.runStart]).drop (u.history.length - 2)) :
    takeEdges slot true true s
      = if historyFull h then
          setDpState slot .faulted (setLatch .unorderedSeen (putDp { u.unordered with history := [], unorderedCause := true } s))
        else setLatch .unorderedSeen (putDp { u.unordered with history := h } s) := by
  have hput : dpAt (putDp u.unordered s) slot = some u.unordered := dpAt_putDp hu rfl
  have hms : joinHistory u.unordered.history (msAt (putDp u.unordered s) u.first.runStart) = h := by
    rw [hh]
    exact joinHistory_eq hlen
  rw [takeEdges_pair hu hw hc hr, unorderedEvent_eq hput, hms]
  split
  · exact congrArg (fun x => setDpState slot .faulted (setLatch .unorderedSeen x)) (putDp_putDp (by rfl) s)
  · exact congrArg (setLatch .unorderedSeen) (putDp_putDp (by rfl) s)

/-- Settles O17: the pair is an unordered event; it is split by whether the joined history is full. -/
theorem unorderedPairJoinsTheHistory : Obligations.UnorderedPairJoinsTheHistory := by
  intro dt slot l1 l2 th1 th2 s u f h hp hu hw hf1 hf2 hth1 hth2 hd1 hd2 hc hn1 hn2 hr hlen hf hh
  have hu' : dpAt (advance dt s) slot = some u := hu
  have hfa : f = Head.accept := by rw [hf, funext Head.accept_eq]
  have hedges := edgesAt_both hu' (edgeAt_of_differs hf1 hth1 hd1 hn1) (edgeAt_of_differs hf2 hth2 hd2 hn2)
  have hlast : h.getLast? = some (msAt (advance dt s) u.first.runStart) := by
    rw [hh, List.getLast?_drop, if_neg (by simp), List.getLast?_append]
    rfl
  have hle : h.length ≤ 3 := by rw [hh]; simp; omega
  have hwork := (guarded_apply (c := fun s => edgesAt s slot (some l1) (some l2)) (f := plain (takeEdges slot true true)) hedges).trans
    (congrArg (·, []) (takeEdges_unordered hu' hw hc hr hlen hh))
  subst hfa
  constructor
  · intro hcase
    rw [historyFull_of_span hle hlast hcase] at hwork
    exact ⟨_, rfl, event_concluded hp hwork rfl rfl rfl⟩
  · intro a h3 ha hage hconds hlock
    rw [(historyFull_iff h3 ha hlast).trans (decide_eq_true hage), if_pos rfl] at hwork
    have hput : dpAt (setLatch .unorderedSeen (putDp { u.unordered with history := [], unorderedCause := true } (advance dt s))) slot
        = some { u.unordered with history := [], unorderedCause := true } := dpAt_putDp hu' rfl
    have hne : u.state ≠ .faulted := by rw [hw]; decide
    obtain ⟨hv, hcond, hdist⟩ := event_faulted hp (congrArg Prod.fst hwork) (KeptBut.refl _ _) hput hne (hconds.trans (by decide))
    have hlatch := (congrArg (fun w : Work => w.1.latches) hwork).trans (setDpState_kept _ _ _ .latches (by decide))
    refine ⟨_, _, rfl, hv, rfl, rfl, rfl, rfl, rfl, rfl, rfl, ?_, hcond, hdist hlock⟩
    rw [event_latches hp]
    exact congrArg Latches.unorderedSeen hlatch

end Sys2Proof.Machine
end

section
/-! ## A counted axle (R20, R21, R38) -/

namespace Sys2Proof.Machine

/-! ### The transmit queue from a request to the attempt (R66, R69, R70) -/

/-- The queued frames have orders of their own, all below the next one (R70). -/
def LineUnit.Ordered (u : LineUnit) : Prop := (u.queue.map (·.ord)).Nodup ∧ ∀ i ∈ u.queue, i.ord < u.nextOrd

/-- A request of a kind is queued. -/
def Queued (w : TxWhat) (s : State) : Prop := ∃ i ∈ s.line.queue, i.what = w

theorem enqueue_ordered {w : TxWhat} {s : State} (h : s.line.Ordered) : (enqueue w s).line.Ordered := by
  obtain ⟨hnd, hlt⟩ := h
  constructor
  · simp only [enqueue, List.map_append, List.map_cons, List.map_nil]
    refine List.nodup_append.2 ⟨hnd, List.nodup_singleton _, ?_⟩
    intro a ha b hb
    obtain ⟨i, hi, rfl⟩ := List.mem_map.1 ha
    rw [List.mem_singleton.1 hb]
    exact (hlt i hi).ne
  · intro i hi
    simp only [enqueue, List.mem_append, List.mem_singleton] at hi
    rcases hi with hi | rfl
    · exact (hlt i hi).trans (Nat.lt_succ_self _)
    · exact Nat.lt_succ_self _

/-- What a request other than SERVICE does to the queue: refused, in the place of the frame of its key, or at the end. -/
theorem request_cases {w : TxWhat} (hk : w.kind ≠ .service) (s : State) :
    (admits s.join w = false ∧ request w s = s)
      ∨ ((∃ i ∈ s.line.queue, i.what.key = w.key)
          ∧ request w s = putQueue (s.line.queue.map fun i => if i.what.key = w.key then { i with what := w, seq := none } else i) s)
      ∨ request w s = enqueue w s := by
  unfold request
  split
  · split
    · rename_i i hi
      refine .inr (.inl ⟨⟨i, List.mem_of_find?_eq_some hi, ?_⟩, rfl⟩)
      simpa using List.find?_some hi
    · simp [hk]
  · rename_i ha
    exact .inl ⟨by simpa using ha, rfl⟩

theorem request_ordered {w : TxWhat} (hk : w.kind ≠ .service) {s : State} (h : s.line.Ordered) : (request w s).line.Ordered := by
  rcases request_cases hk s with ⟨-, he⟩ | ⟨-, he⟩ | he <;> rw [he]
  · exact h
  · have hord : (fun i : TxItem => (if i.what.key = w.key then { i with what := w, seq := none } else i : TxItem).ord) = fun i => i.ord := by
      funext i
      split <;> rfl
    constructor
    · simpa only [putQueue, List.map_map, Function.comp_def, hord] using h.1
    · intro i hi
      obtain ⟨j, hj, rfl⟩ := List.mem_map.1 hi
      exact (congrFun hord j).symm ▸ h.2 j hj
  · exact enqueue_ordered h

/-- A request that the queue admits is queued (R69). -/
theorem queued_request {w : TxWhat} (hk : w.kind ≠ .service) {s : State} (ha : admits s.join w = true) : Queued w (request w s) := by
  rcases request_cases hk s with ⟨hn, -⟩ | ⟨⟨i, hi, hkey⟩, he⟩ | he
  · rw [ha] at hn
    exact absurd hn (by decide)
  · rw [he]
    exact ⟨_, List.mem_map.2 ⟨i, hi, if_pos hkey⟩, rfl⟩
  · rw [he]
    exact ⟨_, List.mem_append_right _ (List.mem_singleton.2 rfl), rfl⟩

/-- A request leaves the queued frames of other keys (R69). -/
theorem Queued.request {v w : TxWhat} (hk : w.kind ≠ .service) (hne : v.key ≠ w.key) {s : State} (h : Queued v s) : Queued v (request w s) := by
  obtain ⟨i, hi, rfl⟩ := h
  rcases request_cases hk s with ⟨-, he⟩ | ⟨-, he⟩ | he <;> rw [he]
  · exact ⟨i, hi, rfl⟩
  · exact ⟨i, List.mem_map.2 ⟨i, hi, if_neg hne⟩, rfl⟩
  · exact ⟨i, List.mem_append_left _ hi, rfl⟩

theorem chosen_mem {l : List TxItem} {i : TxItem} (h : chosen l = some i) : i ∈ l := by
  induction l generalizing i with
  | nil => exact absurd h (by simp [chosen])
  | cons x rest ih =>
    unfold chosen at h
    split at h
    · exact Option.some.inj h ▸ List.mem_cons_self
    · rename_i y hy
      split at h
      · exact Option.some.inj h ▸ List.mem_cons_of_mem _ (ih hy)
      · exact Option.some.inj h ▸ List.mem_cons_self

theorem startAttempt_flight {i : TxItem} {s : State} {b : Body} (hb : buildBody s i.what = some b) :
    ∃ f, (startAttempt i s).line.flight = some f ∧ f.item.what = i.what := by
  simp only [startAttempt, hb]
  exact ⟨_, rfl, rfl⟩

theorem LineUnit.bumpSeq_queue (u : LineUnit) (k : FrameKind) : (u.bumpSeq k).queue = u.queue := by cases k <;> rfl

/-- An attempt takes the frames of its own order out of the queue, and no other. -/
theorem startAttempt_queue (i : TxItem) (s : State) : (startAttempt i s).line.queue = s.line.queue.filter fun j => j.ord ≠ i.ord := by
  unfold startAttempt
  split
  · rfl
  · dsimp only
    split
    · rw [LineUnit.bumpSeq_queue]
    · rfl

/-- A queued STRIKE of an own DP is still under way once an attempt has started: it waits in the queue, or the attempt is its own (R66). -/
theorem underway_startAttempt {slot : Slot} {i : TxItem} {s : State} {u : DpUnit} (hu : dpAt s slot = some u) (ho : s.line.Ordered)
    (hi : i ∈ s.line.queue) (hq : Queued (.strike slot) s) : underway (startAttempt i s) (.strike slot) := by
  obtain ⟨j, hj, hjw⟩ := hq
  by_cases hij : j.ord = i.ord
  · have hji : j = i := List.inj_on_of_nodup_map ho.1 hj hi hij
    obtain ⟨f, hf, hfw⟩ := startAttempt_flight (i := i) (s := s) (b := .strike (strikeBody s u)) (by rw [← hji, hjw]; simp [buildBody, hu])
    exact .inr ⟨f, hf, by rw [hfw, ← hji, hjw]⟩
  · refine .inl ⟨j, ?_, hjw⟩
    rw [startAttempt_queue]
    exact List.mem_filter.2 ⟨hj, by simpa using hij⟩

theorem underway_congr {s t : State} {w : TxWhat} (hq : t.line.queue = s.line.queue) (hf : t.line.flight = s.line.flight) (h : underway s w) :
    underway t w := by
  unfold underway
  rwa [hq, hf]

theorem followQuiet_queue (s : State) : (followQuiet s).line.queue = s.line.queue ∧ (followQuiet s).line.flight = s.line.flight
    ∧ (followQuiet s).line.nextOrd = s.line.nextOrd := by
  unfold followQuiet
  repeat' split
  all_goals exact ⟨rfl, rfl, rfl⟩

/-- A STRIKE that an event has queued is under way at the event's end, whatever attempt the end of the event starts. -/
theorem underway_conclude {slot : Slot} {s0 s1 : State} {u : DpUnit} (hu : dpAt s1 slot = some u) (ho : s1.line.Ordered)
    (hq : Queued (.strike slot) s1) : underway (conclude s0 s1) (.strike slot) := by
  unfold conclude
  extract_lets s2 s3 s4 s5
  have h2 : KeptBut [.flash, .firstFault, .dci] s1 s2 :=
    (((chooseLeader_kept s1).mono (by decide)).trans ((completeFirstFault_kept s0 _).mono (by decide))).trans ((judgeDcis_kept _).mono (by decide))
  have hl2 : s2.line = s1.line := h2 .line (by decide)
  have ho2 : s2.line.Ordered := hl2 ▸ ho
  have hq2 : Queued (.strike slot) s2 := by unfold Queued; rwa [hl2]
  have h3 : s3.line.Ordered ∧ Queued (.strike slot) s3 := by
    have hs : (queueStatus s2).line.Ordered ∧ Queued (.strike slot) (queueStatus s2) :=
      ⟨request_ordered (w := .status) (by decide) ho2, Queued.request (w := .status) (by decide) (by simp [TxWhat.key]) hq2⟩
    unfold s3 askStatus
    repeat' split
    all_goals first
      | exact hs
      | exact ⟨ho2, hq2⟩
  have h4 : s4.line.Ordered ∧ Queued (.strike slot) s4 := by
    obtain ⟨hqu, -, hn⟩ := followQuiet_queue s3
    unfold LineUnit.Ordered Queued s4
    rwa [hqu, hn]
  have hk4 : KeptBut (.firstFault :: watchedParts) s1 s4 :=
    ((h2.mono (by decide)).trans (KeptBut.ite (fun _ => (askStatus_kept s2).mono (by decide)) (fun _ => KeptBut.refl _ _))).trans
      ((followQuiet_kept s3).mono (by decide))
  have hu4 : dpAt s4 slot = some u := (dpAt_congr (hk4 .dps (by decide)) slot).trans hu
  have h5 : underway s5 (.strike slot) := by
    unfold s5
    split
    · obtain ⟨hqu, hfl, -⟩ := followQuiet_queue (contend s4)
      refine underway_congr hqu hfl ?_
      unfold contend
      repeat' split
      · exact .inl h4.2
      · exact underway_startAttempt hu4 h4.1 (chosen_mem ‹_›) h4.2
      · exact .inl h4.2
      · exact .inl h4.2
    · exact .inl h4.2
  have hl : (transmit s5).line = s5.line := transmit_kept s5 .line (by decide)
  exact underway_congr (congrArg _ hl) (congrArg _ hl) h5

/-- A STRIKE that the work of an event has queued is under way at the end of the event. -/
theorem underway_event {dt : Nat} {slot : Slot} {s w : State} {u : DpUnit} {f : State → Work} (hp : s.powered = true) (hw : (f (advance dt s)).1 = w)
    (hu : dpAt w slot = some u) (ho : w.line.Ordered) (hq : Queued (.strike slot) w) : underway (event dt s f) (.strike slot) := by
  rw [event_eq hp, hw]
  have hk := drain_kept drainFuel ((f (advance dt s)).2 ++ if phaseInputsChanged (advance dt s) w then [.evaluate] else []) w
  have hl := hk .line (by decide)
  refine underway_conclude ((dpAt_congr (hk .dps (by decide)) slot).trans hu) ?_ ?_
  · rw [show (drain drainFuel _ w).line = w.line from hl]
    exact ho
  · unfold Queued
    rw [show (drain drainFuel _ w).line = w.line from hl]
    exact hq

end Sys2Proof.Machine
end

section
namespace Sys2Proof.Machine

/-! ### Room in the condition set through the handling of signals (R174) -/

/-- The conditions that signals may raise and that do not stand. -/
def missing (own : Nat) (s : State) : Finset CondId := (signalConds own).toFinset.filter fun k => hasCond s k = false

/-- The set has room for every condition that signals may still raise outside a release. -/
def SignalRoom (own : Nat) (s : State) : Prop := s.conds.length + (missing own s).card ≤ 31

theorem missing_congr {own : Nat} {s t : State} (h : ∀ c, hasCond t c = hasCond s c) : missing own t = missing own s := by
  simp only [missing, h]

theorem card_missing_le (own : Nat) (s : State) : (missing own s).card ≤ 7 :=
  (Finset.card_filter_le _ _).trans ((List.toFinset_card_le _).trans (by simp [signalConds]))

theorem signalRoom_of_length {own : Nat} {s : State} (h : s.conds.length ≤ 24) : SignalRoom own s := by
  have := card_missing_le own s
  unfold SignalRoom
  omega

/-- A raise of one of these conditions takes no more than the room kept for it, and drops no condition. -/
theorem SignalRoom.raise {own : Nat} {s : State} {k : CondId} (h : SignalRoom own s) (hk : k ∈ signalConds own) :
    SignalRoom own (raiseCond k s) ∧ ∀ c, hasCond s c = true → hasCond (raiseCond k s) c = true := by
  unfold SignalRoom at h
  have hroom (hn : hasCond s k = false) : k ∈ missing own s ∧ s.conds.length < 31 := by
    have hm : k ∈ missing own s := Finset.mem_filter.2 ⟨List.mem_toFinset.2 hk, hn⟩
    have := Finset.card_pos.2 ⟨k, hm⟩
    exact ⟨hm, by omega⟩
  rcases raiseCond_cases k s with ⟨-, he⟩ | ⟨hn, hl, he⟩ | ⟨hn, hl, -⟩ | ⟨hn, hl, -⟩
  · have hlen := congrArg List.length he
    simp only [List.length_map] at hlen
    refine ⟨?_, fun c hc => (hasCond_of_ids he c).trans hc⟩
    rw [SignalRoom, hlen, missing_congr (hasCond_of_ids he)]
    exact h
  · have hkeep (c : CondId) (hc : hasCond s c = true) : hasCond (raiseCond k s) c = true := hasCond_raiseCond_of_hasCond (.inl hl) hc
    have hsub : missing own (raiseCond k s) ⊆ (missing own s).erase k := by
      intro c hc
      obtain ⟨hcm, hcn⟩ := Finset.mem_filter.1 hc
      refine Finset.mem_erase.2 ⟨?_, Finset.mem_filter.2 ⟨hcm, ?_⟩⟩
      · rintro rfl
        rw [hasCond_raiseCond hl] at hcn
        exact absurd hcn (by decide)
      · by_contra hcs
        rw [hkeep c (by simpa using hcs)] at hcn
        exact absurd hcn (by decide)
    have hcard := Finset.card_le_card hsub
    rw [Finset.card_erase_of_mem (hroom hn).1] at hcard
    have hpos := Finset.card_pos.2 ⟨k, (hroom hn).1⟩
    refine ⟨?_, hkeep⟩
    rw [SignalRoom, he, length_insertRanked]
    omega
  · have := (hroom hn).2
    omega
  · have := (hroom hn).2
    omega

/-- A cleared condition makes at least the room that it may need again. -/
theorem SignalRoom.clear {own : Nat} {s : State} (h : SignalRoom own s) (k : CondId) : SignalRoom own (clearCond k s) := by
  unfold SignalRoom at *
  by_cases hk : hasCond s k = true
  · have hsub : missing own (clearCond k s) ⊆ insert k (missing own s) := by
      intro c hc
      obtain ⟨hcm, hcn⟩ := Finset.mem_filter.1 hc
      by_cases hck : c = k
      · exact Finset.mem_insert.2 (.inl hck)
      · rw [hasCond_clearCond_other hck] at hcn
        exact Finset.mem_insert_of_mem (Finset.mem_filter.2 ⟨hcm, hcn⟩)
    have hcard := (Finset.card_le_card hsub).trans (Finset.card_insert_le _ _)
    have hlen := length_clearCond_lt hk
    omega
  · rw [clearCond, if_neg hk]
    exact h

/-- A condition stands at a station that makes no release in the event and has room for what its signals may raise. -/
structure StandsWithRoom (own : Nat) (c : CondId) (s : State) : Prop where
  shut : ReleaseShut s
  number : s.cfg.own = own
  room : SignalRoom own s
  stands : hasCond s c = true

theorem standsWithRoom_stable {own : Nat} {c : CondId} (hc : c.kind ∉ signalKinds) : SignalStable (StandsWithRoom own c) where
  still {s t} hco _ hcfg hsh h := by
    refine ⟨hsh h.shut, hcfg ▸ h.number, ?_, (hasCond_congr hco c).trans h.stands⟩
    rw [SignalRoom, hco, missing_congr (hasCond_congr hco)]
    exact h.room
  clears {s k} hk h := by
    refine ⟨?_, (clearCond_cfg k s).symm ▸ h.number, h.room.clear k, ?_⟩
    · rw [ReleaseShut, clearCond_phase]
      exact h.shut
    · have hne : c.kind ≠ k.kind := fun he => hc (he ▸ hk)
      rw [hasCond_clearCond_kind hne]
      exact h.stands
  raises {s k} hk h := by
    obtain ⟨hroom, hkeep⟩ := h.room.raise (h.number ▸ hk)
    refine ⟨?_, (raiseCond_cfg k s).symm ▸ h.number, hroom, hkeep c h.stands⟩
    rw [ReleaseShut, raiseCond_phase]
    exact h.shut
  releases hr h := by
    rw [h.shut.not_holds] at hr
    exact absurd hr (by decide)

/-! ### The counting of an axle -/

/-- A change of a section record leaves the phase itself alone. -/
theorem mapSect_phase (id : Nat) (f : Sect → Sect) (s : State) : (mapSect id f s).phase.phase = s.phase.phase := by
  have hi (x y : Sect) (t : State) : (islandCleared x y t).phase = t.phase := islandCleared_kept x y t .phase (by decide)
  have hc (x y : SectState) (i : Nat) (t : State) : (sectConds x y i t).phase = t.phase := sectConds_kept x y i t .phase (by decide)
  have hh (x y : Sect) (t : State) : (heldCleared x y t).phase.phase = t.phase.phase := by
    unfold heldCleared
    split
    · rw [clearCond_phase]
    · rfl
  unfold mapSect
  split
  · rfl
  · unfold putSect
    split
    · rfl
    · dsimp only
      rw [hh, hi, hc]

theorem mapSects_phase (ids : List Nat) (f : Sect → Sect) (s : State) : (mapSects ids f s).phase.phase = s.phase.phase :=
  List.foldlRecOn (motive := fun t : State => t.phase.phase = s.phase.phase) _ _ rfl fun t ht id _ => (mapSect_phase id f t).trans ht

/-- What `noteSpeed` writes: the last speed of the DP, and for a clamped one its latch and its condition (R24, R27). -/
theorem noteSpeed_eq {slot : Slot} {s : State} {u : DpUnit} (hu : dpAt s slot = some u) (v : Nat) (c : Bool) :
    noteSpeed slot v c s
      = if c then raiseCond (condOf .speedImplausible u.id 0) (setLatch .speedClamped (putDp { u with lastSpeed := v } s))
        else putDp { u with lastSpeed := v } s := by
  simp only [noteSpeed, hu]

theorem dpAt_noteSpeed {slot : Slot} {s : State} {u : DpUnit} (hu : dpAt s slot = some u) (v : Nat) (c : Bool) :
    dpAt (noteSpeed slot v c s) slot = some { u with lastSpeed := v } := by
  have hput : dpAt (putDp { u with lastSpeed := v } s) slot = some { u with lastSpeed := v } := dpAt_putDp hu rfl
  rw [noteSpeed_eq hu]
  split
  · exact (dpAt_congr (raiseCond_kept _ _ .dps (by decide)) slot).trans hput
  · exact hput

theorem noteSpeed_lateArrivalSeen (slot : Slot) (v : Nat) (c : Bool) (s : State) :
    (noteSpeed slot v c s).latches.lateArrivalSeen = s.latches.lateArrivalSeen := by
  unfold noteSpeed
  split
  · rfl
  · dsimp only
    split
    · rw [raiseCond_latches]
      rfl
    · rfl

theorem length_noteSpeed_le (slot : Slot) (v : Nat) (c : Bool) (s : State) : (noteSpeed slot v c s).conds.length ≤ s.conds.length + 1 := by
  unfold noteSpeed
  split
  · omega
  · dsimp only
    split
    · exact length_raiseCond_le _ _
    · exact Nat.le_succ _

/-- A DP with one more axle in the cumulative count of its direction (R21). -/
def DpUnit.counted (u : DpUnit) (inward : Bool) : DpUnit := if inward then { u with inn := u.inn + 1 } else { u with out := u.out + 1 }

theorem DpUnit.counted_fields (u : DpUnit) (inward : Bool) : (u.counted inward).id = u.id ∧ (u.counted inward).slot = u.slot
    ∧ (u.counted inward).inn = u.inn + (if inward then 1 else 0) ∧ (u.counted inward).out = u.out + (if inward then 0 else 1)
    ∧ (u.counted inward).epoch = u.epoch ∧ (u.counted inward).recog = u.recog := by
  cases inward <;> simp [DpUnit.counted]

/-- Every record but one that a DP bounds: one at most. -/
theorem length_farSides_le (d : Nat) : ((boundedBy d).filter (· ≠ crossingSide d)).length ≤ 1 := by
  unfold boundedBy crossingSide
  dsimp only
  split <;> simp

theorem strike_kind_ne (slot : Slot) : (TxWhat.strike slot).kind ≠ .service := by simp [TxWhat.kind]

/-- What the counting of an axle does (R20, R21, R38): the DP's count, the latch and condition of a late arrival, in JOINED a STRIKE queued. -/
structure CountedFrom (u : DpUnit) (a : Axle) (s t : State) : Prop where
  dp : ∃ n, dpAt t u.slot = some { u.counted a.inward with lastSpeed := n }
  latch : t.latches.lateArrivalSeen = (s.latches.lateArrivalSeen || lateArrival s u.id a.inward)
  length : t.conds.length ≤ s.conds.length + 4
  late : lateArrival s u.id a.inward = true → s.conds.length ≤ 20 → hasCond t (condOf .lateArrival u.id 0) = true
  strike : s.join.state = .joined → s.line.Ordered → t.line.Ordered ∧ Queued (.strike u.slot) t
  phase : t.phase.phase = s.phase.phase

/-- One of the changes that follow the count of an axle: at most the DP's last speed, `k` new conditions, and what the statement does not look at. -/
structure AxleStage (slot : Slot) (k : Nat) (s t : State) : Prop where
  dp : ∀ x, dpAt s slot = some x → ∃ n, dpAt t slot = some { x with lastSpeed := n }
  length : t.conds.length ≤ s.conds.length + k
  seen : t.latches.lateArrivalSeen = s.latches.lateArrivalSeen
  phase : t.phase.phase = s.phase.phase
  line : t.line = s.line
  join : t.join = s.join

namespace AxleStage

variable {slot : Slot} {j k : Nat} {s t w : State}

theorem trans (h1 : AxleStage slot j s t) (h2 : AxleStage slot k t w) : AxleStage slot (j + k) s w where
  dp x hx := by
    obtain ⟨m, hm⟩ := h1.dp x hx
    obtain ⟨n, hn⟩ := h2.dp _ hm
    exact ⟨n, hn⟩
  length := by
    have := h1.length
    have := h2.length
    omega
  seen := h2.seen.trans h1.seen
  phase := h2.phase.trans h1.phase
  line := h2.line.trans h1.line
  join := h2.join.trans h1.join

/-- A change of section records is a stage. -/
theorem mapSects {ids : List Nat} (h : ids.length ≤ k) (f : Sect → Sect) : AxleStage slot k s (mapSects ids f s) where
  dp x hx := ⟨x.lastSpeed, (dpAt_congr (mapSects_kept _ _ _ .dps (by decide)) _).trans hx⟩
  length := (length_mapSects_le _ _ _).trans (Nat.add_le_add_left h _)
  seen := congrArg Latches.lateArrivalSeen (mapSects_kept _ _ _ .latches (by decide))
  phase := mapSects_phase _ _ _
  line := mapSects_kept _ _ _ .line (by decide)
  join := mapSects_kept _ _ _ .join (by decide)

/-- The note of a measured speed is a stage. -/
theorem noteSpeed (b : Bool) (v : Nat) (c : Bool) : AxleStage slot 1 s (if b then noteSpeed slot v c s else s) := by
  cases b
  · exact ⟨fun x hx => ⟨x.lastSpeed, hx⟩, Nat.le_succ _, rfl, rfl, rfl, rfl⟩
  · have hk := noteSpeed_kept slot v c s
    exact ⟨fun x hx => ⟨_, dpAt_noteSpeed hx _ _⟩, length_noteSpeed_le _ _ _ _, noteSpeed_lateArrivalSeen _ _ _ _,
      congrArg PhaseUnit.phase (hk .phase (by decide)), hk .line (by decide), hk .join (by decide)⟩

end AxleStage

/-- The late arrival that follows a count (R38): its latch and its condition, where it is one. -/
theorem lateArrival_noted (b : Bool) (c : CondId) (s : State) {t : State}
    (ht : t = if b then raiseCond c (setLatch .lateArrivalSeen s) else s) : KeptBut [.latches, .conds, .notices] s t
      ∧ t.conds.length ≤ s.conds.length + 1 ∧ t.latches.lateArrivalSeen = (s.latches.lateArrivalSeen || b)
      ∧ (b = true → s.conds.length < 31 → hasCond t c = true) := by
  subst ht
  cases b
  · exact ⟨KeptBut.refl _ _, Nat.le_succ _, (Bool.or_false _).symm, nofun⟩
  · refine ⟨((setLatch_kept _ _).mono (by decide)).trans ((raiseCond_kept _ _).mono (by decide)), length_raiseCond_le c (setLatch .lateArrivalSeen s), ?_,
      fun _ hl => hasCond_raiseCond (s := setLatch .lateArrivalSeen s) hl⟩
    rw [Bool.or_true]
    exact congrArg Latches.lateArrivalSeen (raiseCond_latches c (setLatch .lateArrivalSeen s))

theorem countAxle_counts {u v : DpUnit} {a : Axle} {s : State} (hu : dpAt s u.slot = some v) : CountedFrom u a s (countAxle u a s) := by
  obtain ⟨hid, hslot, -, -, -, -⟩ := u.counted_fields a.inward
  unfold countAxle
  extract_lets x s1 cross now tm sp measured s2 s3 s4 s5
  have hx : x = u.counted a.inward := rfl
  rw [← hx] at hid hslot
  have hd1 : dpAt s1 x.slot = some x := by rw [hslot]; exact dpAt_putDp hu (hslot.trans (dpAt_slot hu).symm)
  have hs4 : AxleStage x.slot 3 s1 s4 := ((AxleStage.mapSects (length_farSides_le x.id) _).trans
    (AxleStage.mapSects (ids := [cross]) (k := 1) le_rfl _)).trans (AxleStage.noteSpeed _ _ _)
  obtain ⟨n, hd4⟩ := hs4.dp x hd1
  have hl4 : s4.conds.length ≤ s.conds.length + 3 := hs4.length
  obtain ⟨hk5, hl5, ha5, hc5⟩ := lateArrival_noted (lateArrival s x.id a.inward) (condOf .lateArrival x.id 0) s4 (t := s5) rfl
  have hk : KeptBut [.line] s5 (if s.join.state = .joined then request (.strike x.slot) s5 else s5) :=
    KeptBut.ite (fun _ => request_kept_line (strike_kind_ne _) _) (fun _ => KeptBut.refl _ _)
  refine ⟨⟨n, ?_⟩, ?_, ?_, fun hla hl => ?_, fun hj ho => ?_, ?_⟩
  · rw [← hx, ← hslot, dpAt_congr (hk .dps (by decide)), dpAt_congr (hk5 .dps (by decide))]
    exact hd4
  · rw [← hid, hk .latches (by decide)]
    exact ha5.trans (by rw [hs4.seen]; rfl)
  · rw [(hk .conds (by decide)).1]
    omega
  · rw [← hid] at hla ⊢
    exact (hasCond_congr (hk .conds (by decide)).1 _).trans (hc5 hla (by omega))
  · have hline : s5.line = s.line := (hk5 .line (by decide)).trans hs4.line
    have hjoin : s5.join = s.join := (hk5 .join (by decide)).trans hs4.join
    rw [if_pos hj, ← hslot]
    refine ⟨request_ordered (strike_kind_ne _) (by rw [hline]; exact ho), queued_request (strike_kind_ne _) ?_⟩
    rw [admits, hjoin, hj]
  · rw [hk .phase (by decide), hk5 .phase (by decide)]
    exact hs4.phase

/-- The last edge of a pass is recognised (R14): the recogniser empties and an axle of its direction is counted. -/
theorem edgeMove_last {now : Time} {u : DpUnit} {p : HeadPos} (h : (p = .second ∧ u.recog.state = .a2) ∨ (p = .first ∧ u.recog.state = .b1))
    (hc : (u.head p).covered = true) : edgeMove now u p = (Recog.reset, some (decide (p = .second))) := by
  unfold edgeMove
  rw [hc]
  rcases h with ⟨rfl, hr⟩ | ⟨rfl, hr⟩ <;> simp [Recog.edge, hr]

/-- A DP whose pass an accepted edge has ended, before its axle is counted (R3, R14). -/
def DpUnit.passed (p : HeadPos) (u : DpUnit) : DpUnit := { u.mapHead Head.accept p with recog := Recog.reset }

theorem DpUnit.passed_fields (p : HeadPos) (u : DpUnit) : (u.passed p).slot = u.slot ∧ (u.passed p).id = u.id ∧ (u.passed p).inn = u.inn
    ∧ (u.passed p).out = u.out ∧ (u.passed p).epoch = u.epoch := by cases p <;> exact ⟨rfl, rfl, rfl, rfl, rfl⟩

/-- The axle of a pass that ends at a head (R14, R20). -/
def passAxle (s : State) (u : DpUnit) (p : HeadPos) : Axle := axleOf s (u.mapHead Head.accept p) (decide (p = .second))

/-- Inward is the travel that reaches the nearer head last (R1, R20). -/
theorem passAxle_inward (s : State) (u : DpUnit) (p : HeadPos) : (passAxle s u p).inward = decide (p = u.nearer) := by
  show (decide (p = .second) == (u.mapHead Head.accept p).nearSecond) = decide (p = u.nearer)
  rw [DpUnit.mapHead_nearSecond, DpUnit.nearer]
  cases p <;> cases u.nearSecond <;> rfl

/-- The taking of an edge that ends a pass is the counting of its axle. -/
theorem takeMove_last {s : State} {u : DpUnit} {p : HeadPos} (h : (p = .second ∧ u.recog.state = .a2) ∨ (p = .first ∧ u.recog.state = .b1))
    (hc : (u.head p).covered = true) : takeMove (u.mapHead Head.accept p) (edgeMove s.clock.us u p) s
      = countAxle (u.passed p) (passAxle s u p) (putDp (u.passed p) s) := by
  rw [edgeMove_last h hc]
  rfl

/-- The late arrival of R38 as the statement writes it out: only the phase decides beside the DP and the direction. -/
theorem lateArrival_eq {s t : State} (h : t.phase = s.phase) (id : Nat) (inward : Bool) : lateArrival t id inward
    = (inward && !dpOuter id && (s.phase.phase == .opened || s.phase.phase == .opening || s.phase.phase == .closing)) := by
  rw [lateArrival, h]

/-- LATE_ARRIVAL stands at the end of the event that has counted a late axle with room in the condition set. -/
theorem hasCond_event_lateArrival {dt : Nat} {s s1 : State} {f : State → Work} {y : DpUnit} {a : Axle} (hp : s.powered = true)
    (hcnt : CountedFrom y a s1 (f (advance dt s)).1) (hla : lateArrival s1 y.id a.inward = true) (hph : s1.phase.phase ≠ .closed)
    (hl : s1.conds.length ≤ 20) : hasCond (event dt s f) (condOf .lateArrival y.id 0) = true := by
  have hshut : ReleaseShut (f (advance dt s)).1 := fun hcl => absurd (hcnt.phase.symm.trans hcl) hph
  have hlen : (f (advance dt s)).1.conds.length ≤ 24 := hcnt.length.trans (Nat.add_le_add_right hl 4)
  have hst : StandsWithRoom (f (advance dt s)).1.cfg.own (condOf .lateArrival y.id 0) (f (advance dt s)).1 :=
    ⟨hshut, rfl, signalRoom_of_length hlen, hcnt.late hla hl⟩
  exact ((standsWithRoom_stable (by simp [signalKinds])).event hp hst).stands

/-- Settles O18: the edge ends a pass, so it is the counting of an axle; the STRIKE and LATE_ARRIVAL are followed to the end of the event. -/
theorem countedAxleRaisesOneCount : Obligations.CountedAxleRaisesOneCount := by
  intro dt slot p level th s u inward hp hu hw hlast hf hth hc hlev hn hq hin
  obtain ⟨f, hex, hfa⟩ := exec_acceptedEdge_one (dt := dt) hu hf hth (by rw [hc]; simpa using hlev) hn
  have hu' : dpAt (advance dt s) slot = some u := hu
  obtain ⟨hyslot, hyid, hinn, hout, hep⟩ := u.passed_fields p
  have hslot : (u.passed p).slot = slot := hyslot.trans (dpAt_slot hu)
  have hain : (passAxle (advance dt s) u p).inward = inward := (passAxle_inward _ _ _).trans hin.symm
  rw [if_pos hw, takeMove_last hlast hc] at hfa
  have hput : dpAt (putDp (u.passed p) (advance dt s)) (u.passed p).slot = some (u.passed p) := by
    rw [hslot]
    exact dpAt_putDp hu' hyslot
  have hcnt : CountedFrom (u.passed p) (passAxle (advance dt s) u p) (putDp (u.passed p) (advance dt s)) (f (advance dt s)).1 := by
    rw [hfa]
    exact countAxle_counts hput
  have hlate := lateArrival_eq (s := s) (t := putDp (u.passed p) (advance dt s)) rfl u.id inward
  obtain ⟨n, hdp⟩ := hcnt.dp
  rw [hslot] at hdp
  obtain ⟨-, -, hcinn, hcout, hcep, hcrec⟩ := (u.passed p).counted_fields inward
  rw [← hain] at hcinn hcout hcep hcrec
  refine ⟨_, _, hex, (dpAt_event hp slot).trans hdp, hcinn.trans (by rw [hinn, hain]), hcout.trans (by rw [hout, hain]), hcep.trans hep, hcrec,
    fun hj => ?_, ?_, fun hi ho hph hl => ?_⟩
  · obtain ⟨-, -, ho1, ho2, -⟩ := hq
    obtain ⟨hord, hqd⟩ := hcnt.strike hj ⟨ho1, ho2⟩
    rw [hslot] at hqd
    exact underway_event hp rfl hdp hord hqd
  · rw [event_latches hp, hcnt.latch, hain, hyid, hlate]
    rfl
  · rw [← hyid]
    refine hasCond_event_lateArrival hp hcnt ?_ ?_ hl
    · rw [hain, hyid, hlate, hi, ho]
      rcases hph with h | h | h <;> rw [h] <;> rfl
    · show s.phase.phase ≠ .closed
      rcases hph with h | h | h <;> rw [h] <;> decide

end Sys2Proof.Machine
end

section
/-! ## Recognition, speed and delay (R14, R23 to R29), the timers of a DP (R8, R14), the start of a sweep (R7, R13) -/

namespace Sys2Proof.Machine

/-! ### Speed and delay -/

theorem axleSpeed_noSpeed (spacing : Nat) (delta : Option Nat) : axleSpeed spacing delta true = 0 := by
  cases delta <;> simp [axleSpeed]

/-- An interval too long to be measured gives no speed (R25). -/
theorem axleSpeed_slow {spacing d : Nat} (h : speedQuotient spacing d < 50 ∨ 10000000 < d) : axleSpeed spacing (some d) false = 0 :=
  if_pos (.inr h.symm)

/-- A measurable interval gives the quotient under the high clamp (R23, R24). -/
theorem axleSpeed_measured {spacing d : Nat} (hd : d ≤ 10000000) (hq : 50 ≤ speedQuotient spacing d) :
    axleSpeed spacing (some d) false = min (speedQuotient spacing d) 5000 := by
  have hn : ¬((false : Bool) = true ∨ 10000000 < d ∨ speedQuotient spacing d < 50) := by
    simp only [Bool.false_eq_true, false_or]
    omega
  exact if_neg hn

theorem speedClamped_measured {spacing d : Nat} (hd : d ≤ 10000000) :
    speedClamped spacing (some d) false = decide (5000 < speedQuotient spacing d) := by
  simp [speedClamped, hd]

/-- At 300 mm every interval of whole 20 us steps below 6,000 us lies above 5,000 cm/s (R24). -/
theorem speedQuotient_above {d : Nat} (h0 : 0 < d) (h1 : d < 6000) (h2 : d % 20 = 0) : 5000 < speedQuotient 300 d := by
  have hd : d ≤ 5980 := by omega
  have hq : 5001 ≤ 300 * 100000 / d := (Nat.le_div_iff_mul_le h0).2 (by omega)
  exact hq

theorem roundDown100_spec (n : Nat) : roundDown100 n % 100 = 0 ∧ roundDown100 n ≤ n ∧ n < roundDown100 n + 100 := by
  unfold roundDown100
  omega

/-- Settles O20: the recogniser's moves for the four edges of each pass, then the rules of speed and delay. -/
theorem recognitionSpeedAndDelayFollowTheRules : Obligations.RecognitionSpeedAndDelayFollowTheRules := by
  refine ⟨fun n1 n2 n3 n4 t1 t2 t3 t4 => ⟨⟨rfl, rfl, rfl, rfl⟩, ⟨rfl, rfl, rfl, rfl⟩, fun p => ?_⟩, ?_, ?_, ?_, ?_, ?_, ?_, ?_, ?_⟩
  · cases p <;> exact ⟨rfl, rfl⟩
  · intro d h0 h1 h2
    have hq := speedQuotient_above h0 h1 h2
    rw [axleSpeed_measured (by omega) (by omega), speedClamped_measured (by omega)]
    exact ⟨min_eq_right hq.le, decide_eq_true hq⟩
  · decide
  · decide
  · intro spacing d _ _ _ hd hlow hhigh
    rw [axleSpeed_measured hd hlow]
    exact min_eq_left hhigh
  · exact fun spacing d h => axleSpeed_slow h
  · exact fun spacing delta => ⟨axleSpeed_noSpeed spacing delta, rfl⟩
  · exact fun _ _ _ => rfl
  · intro distance v warning maxDelay hv
    have hdelay : axleDelay distance v warning maxDelay = roundDown100 (min (distance * 100000 / v - warning) maxDelay) := if_neg hv.ne'
    obtain ⟨hm, hle, hlt⟩ := roundDown100_spec (min (distance * 100000 / v - warning) maxDelay)
    rw [hdelay]
    exact ⟨hm, hle.trans (min_le_right _ _), hle.trans (min_le_left _ _), hlt⟩

/-! ### The start of a sweep -/

theorem boundsClear_iff {s : State} {d : Nat} : boundsClear s d = true ↔ ∀ i ∈ boundedBy d, ∃ r, sectAt s i = some r ∧ r.state = .clear := by
  simp [boundsClear, Option.any_eq_true]

theorem sweepConditions_iff {s : State} {u : DpUnit} :
    sweepConditions s u = true ↔ u.state = .working ∧ u.recog.state = .idle ∧ ∀ i ∈ boundedBy u.id, ∃ r, sectAt s i = some r ∧ r.state = .clear := by
  rw [← boundsClear_iff]
  simp [sweepConditions, and_assoc]

/-- A sweep from code 0 of the nearer head, as it starts (R9). -/
def Sweep.fresh (k : SweepKind) (now : Time) (due : Bool) : Sweep :=
  { kind := k, onOther := false, trial := 0, windowStart := now, waiting := false, abandons := 0, wasDue := due, nearResult := none }

/-- A DP put under a sweep from its nearer head (R7 to R9, log 50), its state aside. -/
def DpUnit.underSweep (k : SweepKind) (now : Time) (u : DpUnit) : DpUnit :=
  ({ u with
      sweep := some (Sweep.fresh k now u.due),
      due := match k with
        | .periodic | .commanded => false
        | .start | .recovery => u.due } : DpUnit).mapHead (fun h => { h with run := 0 }) u.nearer

@[simp] theorem DpUnit.underSweep_slot (k : SweepKind) (now : Time) (u : DpUnit) : (u.underSweep k now).slot = u.slot := DpUnit.mapHead_slot _ _ _
@[simp] theorem DpUnit.underSweep_id (k : SweepKind) (now : Time) (u : DpUnit) : (u.underSweep k now).id = u.id := DpUnit.mapHead_id _ _ _
@[simp] theorem DpUnit.underSweep_state (k : SweepKind) (now : Time) (u : DpUnit) : (u.underSweep k now).state = u.state := DpUnit.mapHead_state _ _ _
@[simp] theorem DpUnit.underSweep_sweep (k : SweepKind) (now : Time) (u : DpUnit) : (u.underSweep k now).sweep = some (Sweep.fresh k now u.due) :=
  DpUnit.mapHead_sweep _ _ _

/-- The record under a PERIODIC or COMMANDED sweep, which takes the due one (R7, R8). -/
theorem DpUnit.underSweep_eq {k : SweepKind} (hk : k = .periodic ∨ k = .commanded) (now : Time) (u : DpUnit) :
    { u.underSweep k now with state := .calibrating }
      = { u.mapHead (fun h => { h with run := 0 }) u.nearer with due := false, state := .calibrating, sweep := some (Sweep.fresh k now u.due) } := by
  unfold DpUnit.underSweep
  rcases hk with rfl | rfl <;> cases u.nearer <;> rfl

theorem startSweep_eq {k : SweepKind} {slot : Slot} {s : State} {u : DpUnit} (hu : dpAt s slot = some u) :
    startSweep k slot s = setDpState slot .calibrating (putDp (u.underSweep k s.clock.us) s) := by
  simp only [startSweep, hu]
  cases k <;> rfl

theorem dpAt_underSweep {k : SweepKind} {slot : Slot} {s : State} {u : DpUnit} (hu : dpAt s slot = some u) :
    dpAt (putDp (u.underSweep k s.clock.us) s) slot = some (u.underSweep k s.clock.us) := dpAt_putDp hu (DpUnit.underSweep_slot _ _ _)

/-- The start of a sweep at a DP that is not FAULTED is the change of its record. -/
theorem startSweep_quiet {k : SweepKind} {slot : Slot} {s : State} {u : DpUnit} (hu : dpAt s slot = some u) (hne : u.state ≠ .faulted) :
    startSweep k slot s = putDp { u.underSweep k s.clock.us with state := .calibrating } s := by
  rw [startSweep_eq hu, setDpState_quiet (dpAt_underSweep hu) (by simpa using hne) (by decide), putDp_withState]

/-- The start of a sweep at a FAULTED DP takes its DP_FAULTED with it (R18). -/
theorem startSweep_unfaulted {k : SweepKind} {slot : Slot} {s : State} {u : DpUnit} (hu : dpAt s slot = some u) (hf : u.state = .faulted) :
    startSweep k slot s = clearCond (condOf .dpFaulted u.id 0) (putDp { u.underSweep k s.clock.us with state := .calibrating } s) := by
  rw [startSweep_eq hu, setDpState_unfaulted (dpAt_underSweep hu) (by simpa using hf) (by decide), putDp_withState]
  exact congrArg (fun i => clearCond (condOf .dpFaulted i 0) _) (DpUnit.underSweep_id k s.clock.us u)

/-! ### The timers of a DP -/

/-- Settles O21: each timer's command does its one effect on the record of the DP. -/
theorem dpTimersAgeCoversAndStartSweeps : Obligations.DpTimersAgeCoversAndStartSweeps := by
  constructor
  · intro dt slot s u hp hu hidle haged hage
    have hu' : dpAt (advance dt s) slot = some u := hu
    have hages : u.recog.ages (advance dt s).clock.us = true := by
      simp only [Recog.ages, haged, decide_eq_true hage, bne_iff_ne.2 hidle, Bool.not_false, Bool.and_self]
    refine ⟨_, rfl, event_putDp hp ?_⟩
    simp only [plain, hu', hages, if_true]
  · intro dt slot s u hp hu
    have hu' : dpAt (advance dt s) slot = some u := hu
    constructor
    · intro c hc hran
      have hexp : calExpired (advance dt s) u = true := by
        rw [calExpired, hc]
        exact decide_eq_true hran
      refine ⟨_, rfl, event_putDp hp ?_⟩
      simp only [plain, hu', hexp, if_true]
    · intro hdue hw hidle hclear
      have hcond : u.due = true ∧ sweepConditions (advance dt s) u = true := ⟨hdue, sweepConditions_iff.2 ⟨hw, hidle, hclear⟩⟩
      have hstart := startSweep_quiet (k := .periodic) hu' (by rw [hw]; decide)
      rw [DpUnit.underSweep_eq (.inl rfl), hdue] at hstart
      refine ⟨_, rfl, event_putDp hp ?_⟩
      simp only [plain, hu', if_pos hcond]
      exact congrArg (·, []) hstart

/-! ### CALIBRATE -/

theorem takeCommand_free {cmd : PortCmd} {act : State → State} {s : State} (hf : portTaken s = false) (hj : s.join.state ≠ .loading) :
    takeCommand cmd act s = act s := by
  simp [takeCommand, hf, hj]

/-- In LOADING a command other than RESTART is refused and does nothing (R195). -/
theorem takeCommand_loading {cmd : PortCmd} {act : State → State} {s : State} (hf : portTaken s = false) (hj : s.join.state = .loading)
    (hc : cmd ≠ .restart) : takeCommand cmd act s = noted cmd .refusedState .empty s := by
  simp only [takeCommand, hf, hj, hc, Bool.false_eq_true, if_false, ne_eq, not_false_eq_true, and_self, if_true]
  rfl

/-- A command at a free port outside LOADING whose act moves no section, no peer and no first-fault record is that act and the conclusion. -/
theorem event_takeCommand {dt : Nat} {s s1 : State} {cmd : PortCmd} {act : State → State} (hp : s.powered = true) (hf : portTaken s = false)
    (hj : s.join.state ≠ .loading) (ha : act (advance dt s) = s1) (hs : s1.sections = (advance dt s).sections)
    (hpe : s1.peers = (advance dt s).peers) (hff : s1.firstFault = (advance dt s).firstFault) :
    Concluded s1 (event dt s (plain (takeCommand cmd act))) := by
  refine event_concluded hp ?_ hs hpe hff
  rw [plain_apply, takeCommand_free (s := advance dt s) hf hj, ha]

theorem recoveryConditions_iff {u : DpUnit} : recoveryConditions u = true ↔ u.state = .faulted ∧ u.first.supply = .normal ∧ u.second.supply = .normal
    ∧ (u.first.threshold = none ∨ u.first.covered = false) ∧ (u.second.threshold = none ∨ u.second.covered = false) := by
  simp only [recoveryConditions, Bool.and_eq_true, beq_iff_eq, Bool.not_eq_true', Bool.and_eq_false_iff, Option.isSome_eq_false_iff,
    Option.isNone_iff_eq_none, and_assoc]

theorem ownDp_id {s : State} {id : Nat} {u : DpUnit} (h : ownDp s id = some u) : u.id = id := by
  simpa using List.find?_some h

/-- What the statement excludes from a CALIBRATE that starts a sweep: neither set of conditions holds (R7). -/
theorem calibrate_refused {s : State} {u : DpUnit}
    (h : u.state = .calibrating
      ∨ (u.state = .working ∧ (u.recog.state ≠ .idle ∨ ∃ i ∈ boundedBy u.id, ∀ r, sectAt s i = some r → r.state ≠ .clear))
      ∨ (u.state = .faulted ∧ (u.first.supply ≠ .normal ∨ u.second.supply ≠ .normal))
      ∨ (u.state = .faulted ∧ ((u.first.threshold ≠ none ∧ u.first.covered = true) ∨ (u.second.threshold ≠ none ∧ u.second.covered = true)))) :
    ¬sweepConditions s u = true ∧ ¬recoveryConditions u = true := by
  rw [sweepConditions_iff, recoveryConditions_iff]
  rcases h with h | ⟨hw, h⟩ | ⟨hf, h⟩ | ⟨hf, h⟩
  · simp [h]
  · refine ⟨fun ⟨_, hidle, hclear⟩ => ?_, by simp [hw]⟩
    rcases h with h | ⟨i, hi, hno⟩
    · exact h hidle
    · obtain ⟨r, hr, hc⟩ := hclear i hi
      exact hno r hr hc
  · refine ⟨by simp [hf], fun ⟨_, h1, h2, _⟩ => ?_⟩
    exact h.elim (· h1) (· h2)
  · refine ⟨by simp [hf], fun ⟨_, _, _, h1, h2⟩ => ?_⟩
    rcases h with ⟨ht, hc⟩ | ⟨ht, hc⟩
    · exact h1.elim ht (by simp [hc])
    · exact h2.elim ht (by simp [hc])

/-- A RECOVERY sweep as CALIBRATE starts it, DP_FAULTED aside (R7, R13). -/
def recoveryStarted (id : Nat) (u : DpUnit) (s : State) : State :=
  putDp { u.underSweep .recovery s.clock.us with state := .calibrating } (putPort (.calibrate id) none s)

/-- CALIBRATE of a FAULTED DP that meets the conditions of a RECOVERY sweep, followed to the end of the event (R7, R13, R18). -/
theorem event_recoverySweep {dt id : Nat} {s : State} {u : DpUnit} (hp : s.powered = true) (hf : portTaken s = false) (hj : s.join.state ≠ .loading)
    (hown : ownDp s id = some u) (hu : dpAt s u.slot = some u) (hr : recoveryConditions u = true) :
    ∃ t, exec (.calibrate dt id) s = .next t
      ∧ dpAt t u.slot = some { u.underSweep .recovery (advance dt s).clock.us with state := .calibrating }
      ∧ hasCond t (condOf .dpFaulted id 0) = false ∧ t.port = { s.port with cmd := some (.calibrate id), reply := none, rx := [] }
      ∧ KeptBut (.dps :: .port :: .conds :: watchedParts) (advance dt s) t := by
  have hfa : u.state = .faulted := (recoveryConditions_iff.1 hr).1
  have hown' : ownDp (advance dt s) id = some u := hown
  have hput : dpAt (putPort (.calibrate id) none (advance dt s)) u.slot = some u := hu
  have hc : ¬sweepConditions (advance dt s) u = true := by simp [sweepConditions, hfa]
  have hact : plain (takeCommand (.calibrate id) (calibrateAct id)) (advance dt s)
      = (clearCond (condOf .dpFaulted id 0) (recoveryStarted id u (advance dt s)), []) := by
    rw [plain_apply, takeCommand_free (s := advance dt s) hf hj]
    simp only [calibrateAct, hown', if_neg hc, if_pos hr]
    rw [startSweep_unfaulted hput hfa, ownDp_id hown]
    rfl
  have hsec := clearCond_sections (condOf .dpFaulted id 0) (recoveryStarted id u (advance dt s))
  have hpeers := clearCond_peers (condOf .dpFaulted id 0) (recoveryStarted id u (advance dt s))
  refine ⟨_, rfl, ?_, ?_, ?_, ?_⟩
  · rw [dpAt_event hp, hact, dpAt_congr (clearCond_dps _ _)]
    exact dpAt_putDp hput (DpUnit.underSweep_slot _ _ _)
  · rw [hasCond_event_quiet hp hact hsec hpeers]
    exact hasCond_clearCond _ _
  · rw [event_port hp, hact]
    exact clearCond_kept _ _ .port (by decide)
  · rw [event_quiet hp hact hsec hpeers]
    have hff : (clearCond (condOf .dpFaulted id 0) (recoveryStarted id u (advance dt s))).firstFault = (advance dt s).firstFault :=
      clearCond_kept _ _ .firstFault (by decide)
    have hwork : KeptBut (.dps :: .port :: .conds :: watchedParts) (advance dt s) (recoveryStarted id u (advance dt s)) :=
      ((putPort_kept _ _ _).mono (by decide)).trans ((putDp_kept _ _).mono (by decide))
    exact (hwork.trans ((clearCond_kept _ _).mono (by decide))).trans ((conclude_kept_watched hff).mono (by decide))

/-- Settles O56: CALIBRATE by what its DP allows: no own DP, a COMMANDED sweep, a RECOVERY sweep, neither. -/
theorem calibrateStartsASweepOrIsRefused : Obligations.CalibrateStartsASweepOrIsRefused := by
  intro dt id s hp hf hj
  constructor
  · intro hnone
    have hown : ownDp (advance dt s) id = none := hnone
    refine ⟨_, rfl, event_takeCommand hp hf hj ?_ rfl rfl rfl⟩
    simp only [calibrateAct, hown]
    rfl
  intro u hown hu
  have hid := ownDp_id hown
  have hown' : ownDp (advance dt s) id = some u := hown
  refine ⟨?_, ?_, ?_⟩
  · intro hw hidle hclear
    have hput : dpAt (putPort (.calibrate id) none (advance dt s)) u.slot = some u := hu
    have hc : sweepConditions (advance dt s) u = true := sweepConditions_iff.2 ⟨hw, hidle, hid ▸ hclear⟩
    refine ⟨_, rfl, event_takeCommand hp hf hj ?_ rfl rfl rfl⟩
    simp only [calibrateAct, hown', hc, if_true]
    rw [startSweep_quiet hput (by rw [hw]; decide), DpUnit.underSweep_eq (.inr rfl)]
    rfl
  · intro hfa h1 h2 h3 h4
    obtain ⟨t, hex, hat, hcond, hport, hkept⟩ :=
      event_recoverySweep (dt := dt) hp hf hj hown hu (recoveryConditions_iff.2 ⟨hfa, h1, h2, h3, h4⟩)
    exact ⟨t, _, _, hex, hat, rfl, DpUnit.underSweep_sweep _ _ _, rfl, DpUnit.mapHead_due _ _ _, hcond, hport, hkept⟩
  · intro h
    have hn : ¬sweepConditions (advance dt s) u = true ∧ ¬recoveryConditions u = true := calibrate_refused (by rw [hid]; exact h)
    refine ⟨_, rfl, event_takeCommand hp hf hj ?_ rfl rfl rfl⟩
    simp only [calibrateAct, hown', if_neg hn.1, if_neg hn.2]
    rfl

end Sys2Proof.Machine
end

section
/-! ## Head supply proving (R6, R18, R19) -/

namespace Sys2Proof.Machine

theorem supplyReading_good {band : Limits} {mA : Nat} (h1 : band.low ≤ mA) (h2 : mA ≤ band.high) : supplyReading band mA = none := by
  rw [supplyReading, if_neg (by omega), if_neg (by omega)]

/-- The state that a bad reading points to (R6). -/
theorem supplyReading_bad {band : Limits} {mA : Nat} (h : mA < band.low ∨ band.high < mA) :
    supplyReading band mA = some (if mA < band.low then .openCircuit else .shorted) := by
  unfold supplyReading
  split
  · rfl
  · rw [if_pos (h.resolve_left ‹_›)]

theorem Head.supplyCheck_good {band : Limits} {mA : Nat} {h : Head} (hs : h.supply = .normal) (hr : supplyReading band mA = none) :
    h.supplyCheck band mA = { h with bad := 0 } := by
  simp only [Head.supplyCheck, hs, hr]

theorem Head.supplyCheck_bad {band : Limits} {mA : Nat} {h : Head} {b : SupplyState} (hs : h.supply = .normal) (hr : supplyReading band mA = some b) :
    h.supplyCheck band mA
      = if h.bad < 2 then { h with bad := h.bad + 1, good := 0 } else { h with bad := h.bad + 1, good := 0, supply := b } := by
  simp only [Head.supplyCheck, hs, hr]
  by_cases hb : h.bad < 2
  · rw [if_pos hb, if_neg (by omega)]
  · rw [if_neg hb, if_pos (by omega)]

theorem Head.supplyCheck_heals {band : Limits} {mA : Nat} {h : Head} (hs : h.supply ≠ .normal) (hr : supplyReading band mA = none) :
    h.supplyCheck band mA
      = if h.good < 9 then { h with good := h.good + 1, bad := 0 } else { h with good := h.good + 1, bad := 0, supply := .normal } := by
  unfold Head.supplyCheck
  rw [hr]
  cases hsup : h.supply
  · exact absurd hsup hs
  all_goals
    dsimp only
    by_cases hg : h.good < 9
    · rw [if_pos hg, if_neg (by omega)]
    · rw [if_neg hg, if_pos (by omega)]

/-- The two heads of a DP, whichever is named first, make its supply bad. -/
theorem DpUnit.supplyBad_eq (u : DpUnit) (p : HeadPos) :
    u.supplyBad = ((u.head p).supply != .normal || (u.head (otherHead p)).supply != .normal) := by
  cases p
  · rfl
  · exact Bool.or_comm _ _

theorem DpUnit.supplies_normal {u : DpUnit} (h1 : u.first.supply = .normal) (h2 : u.second.supply = .normal) (p : HeadPos) :
    (u.head p).supply = .normal := by cases p <;> assumption

theorem DpUnit.supplyBad_mapHead (u : DpUnit) (f : Head → Head) (p : HeadPos) :
    (u.mapHead f p).supplyBad = ((f (u.head p)).supply != .normal || (u.head (otherHead p)).supply != .normal) := by
  rw [DpUnit.supplyBad_eq _ p, DpUnit.head_mapHead_same, DpUnit.head_mapHead_other]

/-- A DP after a supply reading of one head (R6, R18). -/
def DpUnit.checked (band : Limits) (p : HeadPos) (mA : Nat) (u : DpUnit) : DpUnit :=
  { u.mapHead (Head.supplyCheck band mA) p with supplyCause := (u.mapHead (Head.supplyCheck band mA) p).supplyBad }

/-- What the head's step of the check leaves of its DP. -/
theorem DpUnit.checked_eq {band : Limits} {p : HeadPos} {mA : Nat} {u : DpUnit} {f : Head → Head} (hf : (u.head p).supplyCheck band mA = f (u.head p)) :
    u.checked band p mA = { u.mapHead f p with supplyCause := (u.mapHead f p).supplyBad } := by
  unfold DpUnit.checked
  rw [← DpUnit.mapHead_const u (Head.supplyCheck band mA), hf, DpUnit.mapHead_const u f]

@[simp] theorem DpUnit.checked_slot (band : Limits) (p : HeadPos) (mA : Nat) (u : DpUnit) : (u.checked band p mA).slot = u.slot := DpUnit.mapHead_slot _ _ _
@[simp] theorem DpUnit.checked_id (band : Limits) (p : HeadPos) (mA : Nat) (u : DpUnit) : (u.checked band p mA).id = u.id := DpUnit.mapHead_id _ _ _
@[simp] theorem DpUnit.checked_state (band : Limits) (p : HeadPos) (mA : Nat) (u : DpUnit) : (u.checked band p mA).state = u.state := DpUnit.mapHead_state _ _ _
@[simp] theorem DpUnit.checked_due (band : Limits) (p : HeadPos) (mA : Nat) (u : DpUnit) : (u.checked band p mA).due = u.due := DpUnit.mapHead_due _ _ _

/-- A reading leaves the thresholds and levels of both heads. -/
theorem DpUnit.checked_levels (band : Limits) (p q : HeadPos) (mA : Nat) (u : DpUnit) :
    ((u.checked band p mA).head q).threshold = (u.head q).threshold ∧ ((u.checked band p mA).head q).covered = (u.head q).covered := by
  have hh (h : Head) : (h.supplyCheck band mA).threshold = h.threshold ∧ (h.supplyCheck band mA).covered = h.covered := by
    unfold Head.supplyCheck
    repeat' split
    all_goals exact ⟨rfl, rfl⟩
  cases p <;> cases q <;> first | exact hh _ | exact ⟨rfl, rfl⟩

theorem DpUnit.checked_caused {band : Limits} {p : HeadPos} {mA : Nat} {u : DpUnit} (hs : (u.checked band p mA).supplyCause = false)
    (ht : u.thresholdCause = false) (hun : u.unorderedCause = false) : (u.checked band p mA).caused = false := by
  have ht' : (u.checked band p mA).thresholdCause = false := Eq.trans (by cases p <;> rfl) ht
  have hun' : (u.checked band p mA).unorderedCause = false := Eq.trans (by cases p <;> rfl) hun
  rw [DpUnit.caused, hs, ht', hun']
  rfl

/-- A DP reloaded after a reading takes its recogniser from the levels before it (R17). -/
theorem DpUnit.checked_recog (band : Limits) (p : HeadPos) (mA : Nat) (us : Time) (u : DpUnit) :
    ((u.checked band p mA).reload us).recog = Recog.reload us u.nearSecond u.first.covered u.second.covered := by
  show Recog.reload us (u.mapHead _ p).nearSecond _ _ = _
  rw [DpUnit.mapHead_nearSecond]
  exact congrArg₂ (Recog.reload us _) (DpUnit.checked_levels band p .first mA u).2 (DpUnit.checked_levels band p .second mA u).2

/-! The record after a reading: good or bad at a DP whose supplies are NORMAL, good at a head whose supply is not. -/

theorem DpUnit.checked_good {band : Limits} {p : HeadPos} {mA : Nat} {u : DpUnit} (h1 : u.first.supply = .normal) (h2 : u.second.supply = .normal)
    (hr : supplyReading band mA = none) : u.checked band p mA = { u.mapHead (fun h => { h with bad := 0 }) p with supplyCause := false } := by
  rw [DpUnit.checked_eq (f := fun h => { h with bad := 0 }) (Head.supplyCheck_good (DpUnit.supplies_normal h1 h2 p) hr), DpUnit.supplyBad_mapHead,
    DpUnit.supplies_normal h1 h2 p, DpUnit.supplies_normal h1 h2 (otherHead p)]
  rfl

theorem DpUnit.checked_bad {band : Limits} {p : HeadPos} {mA : Nat} {u : DpUnit} {b : SupplyState} (h1 : u.first.supply = .normal)
    (h2 : u.second.supply = .normal) (hr : supplyReading band mA = some b) (hb : (u.head p).bad < 2) :
    u.checked band p mA = { u.mapHead (fun h => { h with bad := h.bad + 1, good := 0 }) p with supplyCause := false } := by
  have hn := DpUnit.supplies_normal h1 h2
  rw [DpUnit.checked_eq (f := fun h => { h with bad := h.bad + 1, good := 0 }) ((Head.supplyCheck_bad (hn p) hr).trans (if_pos hb)),
    DpUnit.supplyBad_mapHead, hn p, hn (otherHead p)]
  rfl

/-- The third consecutive bad reading takes the head out of NORMAL (R6) and gives the DP its SUPPLY cause (R18). -/
theorem DpUnit.checked_third {band : Limits} {p : HeadPos} {mA : Nat} {u : DpUnit} (h1 : u.first.supply = .normal) (h2 : u.second.supply = .normal)
    (hr : mA < band.low ∨ band.high < mA) (hb : (u.head p).bad = 2) :
    (u.checked band p mA).supplyCause = true
      ∧ ((u.checked band p mA).head p).supply = if mA < band.low then .openCircuit else .shorted := by
  have hh := (Head.supplyCheck_bad (DpUnit.supplies_normal h1 h2 p) (supplyReading_bad hr)).trans (if_neg (by omega))
  have hs : ((u.checked band p mA).head p).supply = if mA < band.low then .openCircuit else .shorted := by
    have hhead : (u.checked band p mA).head p = (u.head p).supplyCheck band mA := by cases p <;> rfl
    rw [hhead, hh]
  refine ⟨?_, hs⟩
  show (u.mapHead (Head.supplyCheck band mA) p).supplyBad = true
  rw [DpUnit.supplyBad_mapHead, hh]
  split <;> rfl

theorem DpUnit.checked_heals {band : Limits} {p : HeadPos} {mA : Nat} {u : DpUnit} (hs : (u.head p).supply ≠ .normal)
    (hr : supplyReading band mA = none) (hg : (u.head p).good < 9) :
    u.checked band p mA = { u.mapHead (fun h => { h with good := h.good + 1, bad := 0 }) p with supplyCause := true } := by
  rw [DpUnit.checked_eq (f := fun h => { h with good := h.good + 1, bad := 0 }) ((Head.supplyCheck_heals hs hr).trans (if_pos hg)),
    DpUnit.supplyBad_mapHead]
  simp only [bne_iff_ne.2 hs, Bool.true_or]

/-- The tenth consecutive good reading makes the head NORMAL (R6), and with the other head NORMAL takes the SUPPLY cause away (R18). -/
theorem DpUnit.checked_tenth {band : Limits} {p : HeadPos} {mA : Nat} {u : DpUnit} (hs : (u.head p).supply ≠ .normal)
    (ho : (u.head (otherHead p)).supply = .normal) (hr : supplyReading band mA = none) (hg : 9 ≤ (u.head p).good) :
    (u.checked band p mA).supplyCause = false ∧ ((u.checked band p mA).head p).supply = .normal := by
  have hh := (Head.supplyCheck_heals hs hr).trans (if_neg (by omega))
  have hhead : (u.checked band p mA).head p = (u.head p).supplyCheck band mA := by cases p <;> rfl
  refine ⟨?_, by rw [hhead, hh]⟩
  show (u.mapHead (Head.supplyCheck band mA) p).supplyBad = false
  rw [DpUnit.supplyBad_mapHead, hh, ho]
  rfl

theorem DpUnit.supplyBad_of_normal {u : DpUnit} (h1 : u.first.supply = .normal) (h2 : u.second.supply = .normal) : u.supplyBad = false := by
  rw [DpUnit.supplyBad, h1, h2]
  rfl

section

variable {slot : Slot} {p : HeadPos} {mA : Nat} {levels : Levels} {s : State} {u : DpUnit}

/-- A supply reading at its DP, read on the record that it leaves (R6, R10, R18, R19). -/
theorem supplyCheck_eq (hu : dpAt s slot = some u) :
    supplyCheck slot p mA levels s =
      if (u.checked s.cfg.headBand p mA).supplyCause ∧ !u.supplyBad then
        match u.sweep with
        | some w => supplyEndsSweep slot (u.checked s.cfg.headBand p mA) w levels (putDp (u.checked s.cfg.headBand p mA) s)
        | none => if u.state = .working then setDpState slot .faulted (putDp (u.checked s.cfg.headBand p mA) s)
            else putDp (u.checked s.cfg.headBand p mA) s
      else if u.supplyBad ∧ !(u.checked s.cfg.headBand p mA).supplyCause ∧ u.state = .faulted ∧ !(u.checked s.cfg.headBand p mA).caused then
        dpWorks slot (putDp (u.checked s.cfg.headBand p mA) s)
      else putDp (u.checked s.cfg.headBand p mA) s := by
  simp only [supplyCheck, hu]
  cases u.sweep <;> rfl

/-- A reading that neither breaks nor heals the supply is the change of its DP's record. -/
theorem supplyCheck_same (hu : dpAt s slot = some u) (h : (u.checked s.cfg.headBand p mA).supplyCause = u.supplyBad) :
    supplyCheck slot p mA levels s = putDp (u.checked s.cfg.headBand p mA) s := by
  rw [supplyCheck_eq hu, h]
  cases u.supplyBad <;> simp

/-- The third bad reading of a WORKING DP faults it (R6, R18). -/
theorem supplyCheck_faults (hu : dpAt s slot = some u) (h0 : u.supplyBad = false) (h1 : (u.checked s.cfg.headBand p mA).supplyCause = true)
    (hs : u.sweep = none) (hw : u.state = .working) :
    supplyCheck slot p mA levels s = setDpState slot .faulted (putDp (u.checked s.cfg.headBand p mA) s) := by
  rw [supplyCheck_eq hu, h1, h0, hs, hw]
  rfl

/-- The third bad reading of a DP under sweep ends its sweep (R8, R10). -/
theorem supplyCheck_endsSweep {w : Sweep} (hu : dpAt s slot = some u) (h0 : u.supplyBad = false)
    (h1 : (u.checked s.cfg.headBand p mA).supplyCause = true) (hs : u.sweep = some w) :
    supplyCheck slot p mA levels s
      = supplyEndsSweep slot (u.checked s.cfg.headBand p mA) w levels (putDp (u.checked s.cfg.headBand p mA) s) := by
  rw [supplyCheck_eq hu, h1, h0, hs]
  rfl

/-- The reading that heals the supply of a FAULTED DP without another cause takes it to WORKING (R6, R19). -/
theorem supplyCheck_works (hu : dpAt s slot = some u) (h0 : u.supplyBad = true) (h1 : (u.checked s.cfg.headBand p mA).supplyCause = false)
    (hf : u.state = .faulted) (hc : (u.checked s.cfg.headBand p mA).caused = false) :
    supplyCheck slot p mA levels s = dpWorks slot (putDp (u.checked s.cfg.headBand p mA) s) := by
  rw [supplyCheck_eq hu, h1, h0, hf, hc]
  rfl

theorem leaveCalibrating_of_ne (h : s.join.state ≠ .calibrating) : leaveCalibrating s = s := if_neg fun hc => h hc.1

/-- Outside CALIBRATING the work of HEAD_SUPPLY_CHECK is the reading at its DP. -/
theorem exec_headSupplyCheck (dt : Nat) (slot : Slot) (p : HeadPos) (mA : Nat) (levels : Levels) (hj : s.join.state ≠ .calibrating) :
    ∃ f, exec (.headSupplyCheck dt slot p mA levels) s = .next (event dt s f)
      ∧ f (advance dt s) = (supplyCheck slot p mA levels (advance dt s), []) := by
  have hjoin : (supplyCheck slot p mA levels (advance dt s)).join = s.join := supplyCheck_kept _ _ _ _ _ .join (by decide)
  refine ⟨_, rfl, ?_⟩
  rw [plain_apply, leaveCalibrating_of_ne (by rw [hjoin]; exact hj)]

theorem dpAt_checked (mA : Nat) (p : HeadPos) (hu : dpAt s slot = some u) :
    dpAt (putDp (u.checked s.cfg.headBand p mA) s) slot = some (u.checked s.cfg.headBand p mA) := dpAt_putDp hu (DpUnit.checked_slot _ _ _ _)

/-- A reading that neither breaks nor heals the supply leaves its DP as the record after the reading, here `v`, and nothing else changed. -/
theorem event_supplyCheck_same {v : DpUnit} (dt : Nat) (levels : Levels) (hp : s.powered = true) (hj : s.join.state ≠ .calibrating)
    (hu : dpAt s slot = some u) (hv : u.checked s.cfg.headBand p mA = v) (h : v.supplyCause = u.supplyBad) :
    ∃ t, exec (.headSupplyCheck dt slot p mA levels) s = .next t ∧ Concluded (putDp v (advance dt s)) t := by
  obtain ⟨f, hex, hf⟩ := exec_headSupplyCheck dt slot p mA levels hj
  subst hv
  rw [supplyCheck_same (s := advance dt s) hu h] at hf
  exact ⟨_, hex, event_putDp hp hf⟩

/-- The third bad reading of a WORKING DP, followed to the end of the event (R6, R18, R53). -/
theorem event_supplyFaults (dt : Nat) (levels : Levels) (hp : s.powered = true) (hj : s.join.state ≠ .calibrating) (hu : dpAt s slot = some u)
    (h0 : u.supplyBad = false) (h1 : (u.checked s.cfg.headBand p mA).supplyCause = true) (hs : u.sweep = none) (hw : u.state = .working)
    (hl : s.conds.length ≤ 28) :
    ∃ t, exec (.headSupplyCheck dt slot p mA levels) s = .next t
      ∧ dpAt t slot = some { u.checked s.cfg.headBand p mA with state := .faulted } ∧ hasCond t (condOf .dpFaulted u.id 0) = true
      ∧ (declaredLockout s = false → AllDisturbed (boundedBy u.id) t) := by
  obtain ⟨f, hex, hf⟩ := exec_headSupplyCheck dt slot p mA levels hj
  rw [supplyCheck_faults (s := advance dt s) hu h0 h1 hs hw] at hf
  obtain ⟨hv, hcond, hdist⟩ := event_faulted hp (congrArg Prod.fst hf) (KeptBut.refl _ _) (dpAt_checked (s := advance dt s) mA p hu)
    (by rw [DpUnit.checked_state, hw]; decide) hl
  rw [DpUnit.checked_id] at hcond hdist
  exact ⟨_, hex, hv, hcond, hdist⟩

/-- The reading that heals the supply of a FAULTED DP without another cause, followed to the end of the event (R6, R17, R19). -/
theorem event_supplyWorks (dt : Nat) (levels : Levels) (hp : s.powered = true) (hj : s.join.state ≠ .calibrating) (hu : dpAt s slot = some u)
    (h0 : u.supplyBad = true) (h1 : (u.checked s.cfg.headBand p mA).supplyCause = false) (hf : u.state = .faulted)
    (hc : (u.checked s.cfg.headBand p mA).caused = false) :
    ∃ t, exec (.headSupplyCheck dt slot p mA levels) s = .next t
      ∧ dpAt t slot = some { (u.checked s.cfg.headBand p mA).reload (advance dt s).clock.us with state := .working }
      ∧ hasCond t (condOf .dpFaulted u.id 0) = false := by
  obtain ⟨f, hex, hwork⟩ := exec_headSupplyCheck dt slot p mA levels hj
  have hput := dpAt_checked (s := advance dt s) mA p hu
  rw [supplyCheck_works (s := advance dt s) hu h0 h1 hf hc, dpWorks_unfaulted hput ((DpUnit.checked_state _ _ _ _).trans hf),
    DpUnit.checked_id] at hwork
  refine ⟨_, hex, ?_, ?_⟩
  · rw [dpAt_event hp, hwork, dpAt_congr (clearCond_dps _ _)]
    exact dpAt_putDp hput rfl
  · rw [hasCond_event_quiet hp hwork (clearCond_sections _ _) (clearCond_peers _ _)]
    exact hasCond_clearCond _ _

end

/-- A supply fault under a sweep that is no START sweep leaves the DP FAULTED, its sweep over and due again where it was (R8, R10, R13). -/
def DpUnit.sweepBroken (w : Sweep) (u : DpUnit) : DpUnit :=
  { u with sweep := none, due := u.due || w.kind == .periodic || w.wasDue, thresholdCause := u.thresholdAfter w.kind }

theorem supplyEndsSweep_eq {slot : Slot} {u : DpUnit} {w : Sweep} {levels : Levels} {s : State} (hk : w.kind ≠ .start) :
    supplyEndsSweep slot u w levels s
      = sweepReply w.kind (abandonResults w).1 (abandonResults w).2 (setDpState slot .faulted (putDp (u.sweepBroken w) s)) := by
  simp only [supplyEndsSweep, if_neg hk]
  rfl

/-- The reply of an abandoned COMMANDED or RECOVERY sweep (R13). -/
theorem sweepReply_abandoned {w : Sweep} {s : State} (hk : w.kind = .commanded ∨ w.kind = .recovery) :
    (sweepReply w.kind (abandonResults w).1 (abandonResults w).2 s).port.reply
      = some (done (if w.onOther then Content.sweep (w.nearResult.getD .notRun) .abandoned else Content.sweep .abandoned .notRun)) := by
  have hr : (abandonResults w) = if w.onOther then (w.nearResult.getD .notRun, .abandoned) else (.abandoned, .notRun) := rfl
  rcases hk with hk | hk <;> rw [hk, hr] <;> cases w.onOther <;> rfl

/-- The third bad reading under a sweep that is no START sweep, followed to the end of the event (R8, R10, R13, R18). -/
theorem event_supplyEndsSweep {slot : Slot} {p : HeadPos} {mA : Nat} {s : State} {u : DpUnit} {w : Sweep} (dt : Nat) (levels : Levels)
    (hp : s.powered = true) (hj : s.join.state ≠ .calibrating) (hu : dpAt s slot = some u) (h0 : u.supplyBad = false)
    (h1 : (u.checked s.cfg.headBand p mA).supplyCause = true) (hs : u.sweep = some w) (hk : w.kind ≠ .start) (hc : u.state = .calibrating)
    (hl : s.conds.length ≤ 28) :
    ∃ t, exec (.headSupplyCheck dt slot p mA levels) s = .next t
      ∧ dpAt t slot = some { (u.checked s.cfg.headBand p mA).sweepBroken w with state := .faulted } ∧ hasCond t (condOf .dpFaulted u.id 0) = true
      ∧ (w.kind = .commanded ∨ w.kind = .recovery →
          t.port.reply = some (done (if w.onOther then Content.sweep (w.nearResult.getD .notRun) .abandoned else Content.sweep .abandoned .notRun))) := by
  obtain ⟨f, hex, hf⟩ := exec_headSupplyCheck dt slot p mA levels hj
  rw [supplyCheck_endsSweep (s := advance dt s) hu h0 h1 hs, supplyEndsSweep_eq hk] at hf
  have hput := dpAt_putDp (v := (u.checked s.cfg.headBand p mA).sweepBroken w) (dpAt_checked (s := advance dt s) mA p hu) rfl
  have hne : ((u.checked s.cfg.headBand p mA).sweepBroken w).state ≠ .faulted := by
    show (u.checked s.cfg.headBand p mA).state ≠ .faulted
    rw [DpUnit.checked_state, hc]
    decide
  obtain ⟨hv, hcond, -⟩ := event_faulted hp (congrArg Prod.fst hf) (sweepReply_kept _ _ _ _) hput hne hl
  rw [show ((u.checked s.cfg.headBand p mA).sweepBroken w).id = u.id from DpUnit.checked_id _ _ _ _] at hcond
  refine ⟨_, hex, hv, hcond, fun hkind => ?_⟩
  rw [event_port hp, hf]
  exact sweepReply_abandoned hkind

/-- Settles O22: the four readings of a head (good and bad of a NORMAL one, good of another, bad under a sweep), each by the step of the check. -/
theorem supplyReadingsFaultTheDp : Obligations.SupplyReadingsFaultTheDp := by
  refine ⟨?_, ?_, ?_, ?_⟩
  · intro dt slot p mA levels s u hp hj hu hn1 hn2
    have h0 := DpUnit.supplyBad_of_normal hn1 hn2
    exact ⟨fun hlo hhi => event_supplyCheck_same dt levels hp hj hu (DpUnit.checked_good hn1 hn2 (supplyReading_good hlo hhi)) h0.symm,
      fun hr hb => event_supplyCheck_same dt levels hp hj hu (DpUnit.checked_bad hn1 hn2 (supplyReading_bad hr) hb) h0.symm⟩
  · intro dt slot p mA levels s u hp hj hu hn1 hn2 hw hsw hb hr hl hlock
    obtain ⟨hcause, hsup⟩ := DpUnit.checked_third hn1 hn2 hr hb
    obtain ⟨t, hex, hv, hcond, hdist⟩ :=
      event_supplyFaults dt levels hp hj hu (DpUnit.supplyBad_of_normal hn1 hn2) hcause hsw hw (hl.trans (by decide))
    refine ⟨t, _, hex, hv, rfl, hcause, ?_, hcond, hdist hlock⟩
    exact Eq.trans (by cases p <;> rfl) hsup
  · intro dt slot p mA levels s u hp hj hu hnp hno hlo hhi
    have hreading := supplyReading_good hlo hhi
    have h0 : u.supplyBad = true := by rw [DpUnit.supplyBad_eq u p, bne_iff_ne.2 hnp]; rfl
    refine ⟨fun hg => event_supplyCheck_same dt levels hp hj hu (DpUnit.checked_heals hnp hreading hg) h0.symm, fun hg hf hth hun => ?_⟩
    obtain ⟨hcause, hsup⟩ := DpUnit.checked_tenth hnp hno hreading hg
    obtain ⟨t, hex, hv, hcond⟩ := event_supplyWorks dt levels hp hj hu h0 hcause hf (DpUnit.checked_caused hcause hth hun)
    refine ⟨t, _, hex, hv, rfl, hcause, ?_, ?_, DpUnit.checked_due _ _ _ _, hcond⟩
    · cases p <;> exact (Head.markLevel_supply _).trans hsup
    · exact DpUnit.checked_recog _ _ _ _ _
  · intro dt slot p mA levels s u w hp hj hu hn1 hn2 hst hsw hk hb hr hl
    obtain ⟨hcause, hsup⟩ := DpUnit.checked_third hn1 hn2 hr hb
    obtain ⟨t, hex, hv, hcond, hreply⟩ :=
      event_supplyEndsSweep dt levels hp hj hu (DpUnit.supplyBad_of_normal hn1 hn2) hcause hsw hk hst (hl.trans (by decide))
    refine ⟨t, _, hex, hv, rfl, hcause, rfl, fun q => ?_, ?_, hcond, hreply⟩
    · have hq := DpUnit.checked_levels s.cfg.headBand p q mA u
      cases q <;> exact hq
    · show ((u.checked s.cfg.headBand p mA).due || w.kind == .periodic || w.wasDue) = _
      rw [DpUnit.checked_due]
      rfl

end Sys2Proof.Machine
end

section
/-! ## Probe windows, the end of a sweep and its abandonment (R8 to R13, R17, R19) -/

namespace Sys2Proof.Machine

/-! ### The judgement of a head (R10) -/

/-- A candidate of at least 4 within 12 of the previous threshold is accepted. -/
theorem judgeHead_accepted {margin n b : Nat} {prev : Option Nat} (hb : n + margin = b) (h4 : 4 ≤ n)
    (hq : ∀ q, prev = some q → n ≤ q + 12 ∧ q ≤ n + 12) : judgeHead margin prev (some b) = .accepted n := by
  have hn : b - margin = n := by omega
  have hout : ¬(prev.any fun p => p + 12 < n ∨ n + 12 < p) = true := by
    simp only [Option.any_eq_true, decide_eq_true_eq, not_exists, not_and]
    intro q hp
    have := hq q hp
    omega
  simp only [judgeHead, if_neg (show ¬b < margin + 4 by omega), hn, if_neg hout]

theorem judgeHead_tooLow {margin b : Nat} {prev : Option Nat} (hb : b < margin + 4) : judgeHead margin prev (some b) = .refused .tooLow := if_pos hb

theorem judgeHead_outOfWindow {margin b q : Nat} (hb : margin + 4 ≤ b) (hq : q + 12 + margin < b ∨ b + 12 < q + margin) :
    judgeHead margin (some q) (some b) = .refused .outOfWindow := by
  have hout : (some q).any (fun p => decide (p + 12 < b - margin ∨ b - margin + 12 < p)) = true := by
    simp only [Option.any_some, decide_eq_true_eq]
    omega
  simp only [judgeHead, if_neg (show ¬b < margin + 4 by omega), hout, if_true]

/-! ### The end of a probe window (R9, R12) -/

@[simp] theorem DpUnit.mapHead_nearer (u : DpUnit) (f : Head → Head) (p : HeadPos) : (u.mapHead f p).nearer = u.nearer := by cases p <;> rfl

section

variable {slot : Slot} {lowest : Nat} {levels : Levels} {s : State} {u : DpUnit} {w : Sweep}

/-- The head of a sweep that does not wait. -/
def DpUnit.sweptHead (u : DpUnit) (w : Sweep) : HeadPos := if w.onOther then otherHead u.nearer else u.nearer

theorem windowEnd_next (hu : dpAt s slot = some u) (hw : u.sweep = some w) (hwait : w.waiting = false) (hlow : w.trial ≤ lowest) (ht : w.trial < 63) :
    windowEnd slot lowest levels s = putDp { u with sweep := some { w with trial := w.trial + 1, windowStart := later w.windowStart 5000 } } s := by
  simp only [windowEnd, hu, hw, hwait, if_neg (show ¬lowest < w.trial by omega), if_pos (show w.trial + 1 ≤ 63 by omega)]
  rfl

theorem windowEnd_boundary (hu : dpAt s slot = some u) (hw : u.sweep = some w) (hwait : w.waiting = false) (hlow : lowest < w.trial) :
    windowEnd slot lowest levels s
      = headDone slot w (judgeHead s.cfg.timing.calMargin (u.head (u.sweptHead w)).threshold (some w.trial)) levels s := by
  simp only [windowEnd, hu, hw, hwait, if_pos hlow]
  rfl

theorem windowEnd_noBoundary (hu : dpAt s slot = some u) (hw : u.sweep = some w) (hwait : w.waiting = false) (ht : w.trial = 63) (hlow : 63 ≤ lowest) :
    windowEnd slot lowest levels s = headDone slot w (.refused .noBoundary) levels s := by
  simp only [windowEnd, hu, hw, hwait, if_neg (show ¬lowest < w.trial by omega), if_neg (show ¬w.trial + 1 ≤ 63 by omega)]
  rfl

theorem windowEnd_waits (hu : dpAt s slot = some u) (hw : u.sweep = some w) (hwait : w.waiting = true) (hc : (u.head u.nearer).reads lowest = true) :
    windowEnd slot lowest levels s = putDp { u with sweep := some { w with windowStart := later w.windowStart 5000 } } s := by
  simp only [windowEnd, hu, hw, hwait, if_true, hc]
  rfl

theorem windowEnd_resumes (hu : dpAt s slot = some u) (hw : u.sweep = some w) (hwait : w.waiting = true) (hc : (u.head u.nearer).reads lowest = false) :
    windowEnd slot lowest levels s
      = putDp { u with sweep := some { w with waiting := false, trial := 0, windowStart := later w.windowStart 5000 } } s := by
  simp only [windowEnd, hu, hw, hwait, if_true, hc, Bool.false_eq_true, if_false]
  rfl

/-- The work of PROBE_WINDOW_END at a window that is over. -/
theorem exec_probeWindowEnd {dt : Nat} (hu : dpAt s slot = some u) (hw : u.sweep = some w) (hr : reached (advance dt s).clock.us w.windowStart = true)
    (h5 : 5000 ≤ ((advance dt s).clock.us - w.windowStart).toNat) :
    ∃ f, exec (.probeWindowEnd dt slot lowest levels) s = .next (event dt s f)
      ∧ f (advance dt s) = (leaveCalibrating (windowEnd slot lowest levels (advance dt s)), []) := by
  have hu' : dpAt (advance dt s) slot = some u := hu
  refine ⟨_, rfl, ?_⟩
  have hover : windowOver (advance dt s) u = true := by
    rw [windowOver, hw]
    exact Bool.and_eq_true_iff.2 ⟨hr, decide_eq_true h5⟩
  rw [guarded_apply (by rw [hu']; exact hover), plain_apply]

/-- CALIBRATING is not left outside it, nor while a START sweep runs (R87). -/
theorem leaveCalibrating_stays (hu : dpAt s slot = some u) (hw : u.sweep = some w) (hj : s.join.state ≠ .calibrating ∨ w.kind = .start) :
    leaveCalibrating s = s := by
  rcases hj with hj | hk
  · exact leaveCalibrating_of_ne hj
  · refine if_neg fun hc => ?_
    have hany : (s.dps.any fun v => v.sweep.any fun w => w.kind == .start) = true :=
      List.any_eq_true.2 ⟨u, dpAt_mem hu, by rw [hw]; exact beq_iff_eq.2 hk⟩
    rw [hany] at hc
    exact absurd hc.2 (by decide)

/-- A window whose end only moves the sweep of its DP is that move. -/
theorem event_windowEnd {dt : Nat} {f : State → Work} {v : DpUnit} {w' : Sweep} (hp : s.powered = true) (hu : dpAt s slot = some u)
    (hf : f (advance dt s) = (leaveCalibrating (windowEnd slot lowest levels (advance dt s)), []))
    (hend : windowEnd slot lowest levels (advance dt s) = putDp v (advance dt s)) (hslot : v.slot = u.slot) (hw : v.sweep = some w')
    (hj : s.join.state ≠ .calibrating ∨ w'.kind = .start) : Concluded (putDp v (advance dt s)) (event dt s f) := by
  have hv : dpAt (putDp v (advance dt s)) slot = some v := dpAt_putDp (show dpAt (advance dt s) slot = some u from hu) hslot
  refine event_putDp hp ?_
  rw [hf, hend, leaveCalibrating_stays hv hw hj]

/-! ### The result of the head swept first (R10) -/

theorem enterResult_accepted {p : HeadPos} {n : Nat} (hu : dpAt s slot = some u) :
    enterResult slot p (.accepted n) s
      = clearCond (condOf .calibrationFailed u.id (headItem p)) (putDp (u.mapHead (fun h => { h with threshold := some n }) p) s) := by
  simp only [enterResult, hu]

theorem enterResult_refused {p : HeadPos} {r : RefuseReason} (hu : dpAt s slot = some u) :
    enterResult slot p (.refused r) s = raiseCond (condOf .calibrationFailed u.id (headItem p)) s := by
  simp only [enterResult, hu]

/-- A DP whose sweep goes on from the nearer head, with its result, to the other (R9, R10). -/
def DpUnit.onToOther (w : Sweep) (r : SweepResult) (now : Time) (u : DpUnit) : DpUnit :=
  (({ u with sweep := some { w with onOther := true, trial := 0, windowStart := now, nearResult := some r } } : DpUnit).mapHead
    (Head.resume w.kind) u.nearer).mapHead (fun h => { h with run := 0 }) (otherHead u.nearer)

@[simp] theorem DpUnit.onToOther_slot (w : Sweep) (r : SweepResult) (now : Time) (u : DpUnit) : (u.onToOther w r now).slot = u.slot := by
  simp [DpUnit.onToOther]

@[simp] theorem DpUnit.onToOther_sweep (w : Sweep) (r : SweepResult) (now : Time) (u : DpUnit) :
    (u.onToOther w r now).sweep = some { w with onOther := true, trial := 0, windowStart := now, nearResult := some r } := by
  simp [DpUnit.onToOther]

theorem DpUnit.onToOther_threshold (w : Sweep) (r : SweepResult) (now : Time) (u : DpUnit) :
    ((u.onToOther w r now).head u.nearer).threshold = (u.head u.nearer).threshold := by
  unfold DpUnit.onToOther
  rw [DpUnit.head_other_mapHead, DpUnit.head_mapHead_same]
  cases u.nearer <;> rfl

theorem headDone_first {r : SweepResult} {v : DpUnit} (hu : dpAt s slot = some u) (h1 : w.onOther = false)
    (hv : dpAt (enterResult slot u.nearer r s) slot = some v) :
    headDone slot w r levels s = putDp (v.onToOther w r s.clock.us) (enterResult slot u.nearer r s) := by
  simp only [headDone, hu, h1, Bool.false_eq_true, if_false, hv]
  rfl

/-- What the result of the head swept first leaves, read through its entry at the head. -/
theorem event_headDone_first {dt : Nat} {f : State → Work} {r : SweepResult} {v : DpUnit} (hp : s.powered = true) (hu : dpAt s slot = some u)
    (h1 : w.onOther = false) (hj : s.join.state ≠ .calibrating ∨ w.kind = .start)
    (hf : f (advance dt s) = (leaveCalibrating (headDone slot w r levels (advance dt s)), []))
    (hv : dpAt (enterResult slot u.nearer r (advance dt s)) slot = some v)
    (hk : KeptBut [.dps, .conds, .notices] (advance dt s) (enterResult slot u.nearer r (advance dt s))) :
    dpAt (event dt s f) slot = some (v.onToOther w r (advance dt s).clock.us)
      ∧ ∀ c, hasCond (event dt s f) c = hasCond (enterResult slot u.nearer r (advance dt s)) c := by
  have hdone := headDone_first (levels := levels) (show dpAt (advance dt s) slot = some u from hu) h1 hv
  have hv' := dpAt_putDp hv (DpUnit.onToOther_slot w r (advance dt s).clock.us v)
  have hjoin : (enterResult slot u.nearer r (advance dt s)).join = s.join := hk .join (by decide)
  rw [hdone, leaveCalibrating_stays hv' (DpUnit.onToOther_sweep _ _ _ _) (by rw [← hjoin] at hj; exact hj)] at hf
  refine ⟨?_, fun c => ?_⟩
  · rw [dpAt_event hp, hf]
    exact hv'
  · exact hasCond_event_quiet hp hf (hk .sections (by decide)) (hk .peers (by decide)) c

/-- An accepted first head has its threshold, its CALIBRATION_FAILED goes, and the sweep goes on (R10). -/
theorem event_firstAccepted {dt n : Nat} {f : State → Work} (hp : s.powered = true) (hu : dpAt s slot = some u)
    (h1 : w.onOther = false) (hj : s.join.state ≠ .calibrating ∨ w.kind = .start)
    (hf : f (advance dt s) = (leaveCalibrating (headDone slot w (.accepted n) levels (advance dt s)), [])) :
    ∃ v, dpAt (event dt s f) slot = some v ∧ (v.head u.nearer).threshold = some n
      ∧ v.sweep = some { w with onOther := true, trial := 0, windowStart := (advance dt s).clock.us, nearResult := some (.accepted n) }
      ∧ hasCond (event dt s f) (condOf .calibrationFailed u.id (headItem u.nearer)) = false := by
  have hu' : dpAt (advance dt s) slot = some u := hu
  have hent := enterResult_accepted (p := u.nearer) (n := n) hu'
  have hv : dpAt (enterResult slot u.nearer (.accepted n) (advance dt s)) slot
      = some (u.mapHead (fun h => { h with threshold := some n }) u.nearer) := by
    rw [hent, dpAt_congr (clearCond_dps _ _)]
    exact dpAt_putDp hu' (DpUnit.mapHead_slot _ _ _)
  obtain ⟨hat, hcond⟩ := event_headDone_first hp hu h1 hj hf hv
    (by rw [hent]; exact ((putDp_kept _ _).mono (by decide)).trans ((clearCond_kept _ _).mono (by decide)))
  refine ⟨_, hat, ?_, DpUnit.onToOther_sweep _ _ _ _, ?_⟩
  · have ht := DpUnit.onToOther_threshold w (.accepted n) (advance dt s).clock.us (u.mapHead (fun h => { h with threshold := some n }) u.nearer)
    rw [DpUnit.mapHead_nearer, DpUnit.head_mapHead_same] at ht
    exact ht
  · rw [hcond, hent]
    exact hasCond_clearCond _ _

/-- A refused first head keeps its threshold, its CALIBRATION_FAILED stands, and the sweep goes on (R10). -/
theorem event_firstRefused {dt : Nat} {reason : RefuseReason} {f : State → Work} (hp : s.powered = true) (hu : dpAt s slot = some u)
    (h1 : w.onOther = false) (hj : s.join.state ≠ .calibrating ∨ w.kind = .start) (hl : s.conds.length < 31)
    (hf : f (advance dt s) = (leaveCalibrating (headDone slot w (.refused reason) levels (advance dt s)), [])) :
    ∃ v, dpAt (event dt s f) slot = some v ∧ (v.head u.nearer).threshold = (u.head u.nearer).threshold
      ∧ v.sweep = some { w with onOther := true, trial := 0, windowStart := (advance dt s).clock.us, nearResult := some (.refused reason) }
      ∧ hasCond (event dt s f) (condOf .calibrationFailed u.id (headItem u.nearer)) = true := by
  have hu' : dpAt (advance dt s) slot = some u := hu
  have hent := enterResult_refused (p := u.nearer) (r := reason) hu'
  have hv : dpAt (enterResult slot u.nearer (.refused reason) (advance dt s)) slot = some u := by
    rw [hent, dpAt_congr (raiseCond_dps _ _)]
    exact hu'
  obtain ⟨hat, hcond⟩ := event_headDone_first hp hu h1 hj hf hv (by rw [hent]; exact (raiseCond_kept _ _).mono (by decide))
  refine ⟨_, hat, DpUnit.onToOther_threshold _ _ _ _, DpUnit.onToOther_sweep _ _ _ _, ?_⟩
  rw [hcond, hent]
  exact hasCond_raiseCond hl

end

/-- Settles O23: a window without a boundary, the first head's judgement by its cases, code 63, and the waiting START sweep. -/
theorem probeWindowsFindTheBoundary : Obligations.ProbeWindowsFindTheBoundary := by
  refine ⟨?_, ?_, ?_, ?_⟩
  · intro dt slot lowest levels s u w hp hu hw hwait hr h5 hlow ht hj
    obtain ⟨f, hex, hf⟩ := exec_probeWindowEnd (lowest := lowest) (levels := levels) hu hw hr h5
    exact ⟨_, hex, event_windowEnd hp hu hf (windowEnd_next hu hw hwait hlow ht) rfl rfl hj⟩
  · intro dt slot lowest levels s u w hp hu hw hwait h1 hr h5 hlow hj
    obtain ⟨f, hex, hf⟩ := exec_probeWindowEnd (lowest := lowest) (levels := levels) hu hw hr h5
    have hswept : u.sweptHead w = u.nearer := if_neg (by rw [h1]; decide)
    rw [windowEnd_boundary (s := advance dt s) hu hw hwait hlow, hswept, advance_cfg] at hf
    refine ⟨fun hm hq => ?_, fun hm hl => ?_, fun q hm hq hout hl => ?_⟩
    · rw [judgeHead_accepted (n := w.trial - s.cfg.timing.calMargin) (by omega) (by omega) fun q h => by have := hq q h; omega] at hf
      obtain ⟨v, hv⟩ := event_firstAccepted hp hu h1 hj hf
      exact ⟨_, v, hex, hv⟩
    · rw [judgeHead_tooLow hm] at hf
      obtain ⟨v, hv⟩ := event_firstRefused hp hu h1 hj hl hf
      exact ⟨_, v, hex, hv⟩
    · rw [hq, judgeHead_outOfWindow hm hout] at hf
      obtain ⟨v, hv⟩ := event_firstRefused hp hu h1 hj hl hf
      rw [hq] at hv
      exact ⟨_, v, hex, hv⟩
  · intro dt slot lowest levels s u w hp hu hw hwait h1 hr h5 ht hlow hj hl
    obtain ⟨f, hex, hf⟩ := exec_probeWindowEnd (lowest := lowest) (levels := levels) hu hw hr h5
    rw [windowEnd_noBoundary (s := advance dt s) hu hw hwait ht hlow] at hf
    obtain ⟨v, hv⟩ := event_firstRefused hp hu h1 hj hl hf
    exact ⟨_, v, hex, hv⟩
  · intro dt slot lowest th levels s u w hp hu hw hwait hk hr h5 hth
    obtain ⟨f, hex, hf⟩ := exec_probeWindowEnd (lowest := lowest) (levels := levels) hu hw hr h5
    have hreads := Head.reads_of_threshold hth lowest
    constructor
    · intro hlow
      exact ⟨_, hex, event_windowEnd hp hu hf (windowEnd_waits hu hw hwait (hreads.trans (decide_eq_true hlow))) rfl rfl (.inr hk)⟩
    · intro hlow
      exact ⟨_, hex, event_windowEnd hp hu hf (windowEnd_resumes hu hw hwait (hreads.trans (decide_eq_false (by omega)))) rfl rfl (.inr hk)⟩

end Sys2Proof.Machine
end

section
namespace Sys2Proof.Machine

/-! ### The end of a sweep (R8, R10, R12, R17, R19) -/

@[simp] theorem DpUnit.mapHead_supplyCause (u : DpUnit) (f : Head → Head) (p : HeadPos) : (u.mapHead f p).supplyCause = u.supplyCause := by
  cases p <;> rfl
@[simp] theorem DpUnit.mapHead_unorderedCause (u : DpUnit) (f : Head → Head) (p : HeadPos) : (u.mapHead f p).unorderedCause = u.unorderedCause := by
  cases p <;> rfl

/-- A head with a threshold takes the level of a sample at it (R12, R17). -/
theorem Head.takeLevel_of_threshold {h : Head} {n : Nat} (hn : h.threshold = some n) (level : Nat) :
    h.takeLevel level = { h with covered := decide (level < n), run := 0, levelTaken := true } := by
  rw [Head.takeLevel, hn, Head.reads_of_threshold hn]
  rfl

@[simp] theorem Head.takeLevel_threshold (h : Head) (level : Nat) : (h.takeLevel level).threshold = h.threshold := by
  unfold Head.takeLevel
  split <;> rfl

/-- The first levels are those of the heads with a threshold, taken as accepted edges (R5, R12). -/
theorem DpUnit.firstLevels_head {u : DpUnit} {q : HeadPos} {n : Nat} (hn : (u.head q).threshold = some n) (l : Levels) :
    (u.firstLevels l).head q = ((u.head q).takeLevel (levelAt l q)).markLevel := by
  have hs : (u.head q).threshold.isSome = true := by rw [hn]; rfl
  cases q <;> exact if_pos hs

/-- A DP whose sweep is over, with the causes taken away that a sweep's end can take (R18). -/
def DpUnit.uncaused (u : DpUnit) : DpUnit := { u with sweep := none, thresholdCause := false, unorderedCause := false }

/-- A DP that the end of a sweep takes back to WORKING: its levels taken, all causes away, its timer started, its recogniser reloaded (R8, R17 to R19). -/
def DpUnit.atSweepEnd (k : SweepKind) (l : Levels) (us ms : Time) (u : DpUnit) : DpUnit :=
  { ({ (if k = .start then (u.uncaused.firstLevels l).reload us
        else u.uncaused.mapHead (Head.takeLevel (levelAt l (otherHead u.nearer))) (otherHead u.nearer)) with
      calStart := some ms } : DpUnit).reload us with state := .working }

section

variable (k : SweepKind) (l : Levels) (us ms : Time) (u : DpUnit)

@[simp] theorem DpUnit.atSweepEnd_state : (u.atSweepEnd k l us ms).state = .working := rfl
@[simp] theorem DpUnit.atSweepEnd_calStart : (u.atSweepEnd k l us ms).calStart = some ms := rfl

@[simp] theorem DpUnit.atSweepEnd_slot : (u.atSweepEnd k l us ms).slot = u.slot := by
  unfold DpUnit.atSweepEnd
  split
  · rfl
  · exact DpUnit.mapHead_slot _ _ _

@[simp] theorem DpUnit.atSweepEnd_sweep : (u.atSweepEnd k l us ms).sweep = none := by
  unfold DpUnit.atSweepEnd
  split
  · rfl
  · exact DpUnit.mapHead_sweep _ _ _

@[simp] theorem DpUnit.atSweepEnd_nearSecond : (u.atSweepEnd k l us ms).nearSecond = u.nearSecond := by
  unfold DpUnit.atSweepEnd
  split
  · rfl
  · exact DpUnit.mapHead_nearSecond _ _ _

end

/-- The recogniser of a record that has just been reloaded is the one of the levels that stand in it. -/
theorem DpUnit.reload_recog (us : Time) (u : DpUnit) :
    (u.reload us).recog = Recog.reload us (u.reload us).nearSecond (u.reload us).first.covered (u.reload us).second.covered :=
  (congrArg₂ (Recog.reload us u.nearSecond) (Head.markLevel_covered u.first) (Head.markLevel_covered u.second)).symm

theorem DpUnit.atSweepEnd_recog (k : SweepKind) (l : Levels) (us ms : Time) (u : DpUnit) :
    (u.atSweepEnd k l us ms).recog
      = Recog.reload us u.nearSecond (u.atSweepEnd k l us ms).first.covered (u.atSweepEnd k l us ms).second.covered := by
  rw [← DpUnit.atSweepEnd_nearSecond k l us ms u]
  exact DpUnit.reload_recog us _

/-- A head at the end of a START sweep, with its first level (R12). -/
theorem DpUnit.atSweepEnd_head_start {u : DpUnit} {q : HeadPos} {n : Nat} (hn : (u.head q).threshold = some n) (l : Levels) (us ms : Time) :
    ((u.atSweepEnd .start l us ms).head q).threshold = some n
      ∧ ((u.atSweepEnd .start l us ms).head q).covered = decide (levelAt l q < n)
      ∧ ((u.atSweepEnd .start l us ms).head q).levelTaken = true := by
  have hh : (u.atSweepEnd .start l us ms).head q = ((u.firstLevels l).head q).markLevel.markLevel := by cases q <;> rfl
  rw [hh, DpUnit.firstLevels_head hn, Head.takeLevel_of_threshold hn]
  simp [hn]

/-- The head swept last at the end of another sweep, with its level (R10, R17). -/
theorem DpUnit.atSweepEnd_head_other {k : SweepKind} {u : DpUnit} {n : Nat} (hk : k ≠ .start) (hn : (u.head (otherHead u.nearer)).threshold = some n)
    (l : Levels) (us ms : Time) :
    ((u.atSweepEnd k l us ms).head (otherHead u.nearer)).threshold = some n
      ∧ ((u.atSweepEnd k l us ms).head (otherHead u.nearer)).covered = decide (levelAt l (otherHead u.nearer) < n) := by
  have hh : (u.atSweepEnd k l us ms).head (otherHead u.nearer)
      = ((u.head (otherHead u.nearer)).takeLevel (levelAt l (otherHead u.nearer))).markLevel := by
    unfold DpUnit.atSweepEnd
    rw [if_neg hk]
    cases otherHead u.nearer <;> rfl
  rw [hh, Head.takeLevel_of_threshold hn]
  simp [hn]

section

variable {slot : Slot} {levels : Levels} {s : State} {u : DpUnit} {w : Sweep}

/-- A DP under sweep without a cause goes to WORKING (R19). -/
theorem settleDp_works (hu : dpAt s slot = some u) (hc : u.caused = false) (hne : u.state ≠ .faulted) :
    settleDp slot s = putDp { u.reload s.clock.us with state := .working } s := by
  simp only [settleDp, hu, hc, Bool.false_eq_true, if_false]
  exact dpWorks_quiet hu hne

/-- A DP whose timer starts at the end of its sweep and which goes to WORKING (R8, R19). -/
theorem settleDp_timer {k : SweepKind} {interval : Nat} {now : Time} (x : DpUnit) (hu : dpAt s slot = some u) (hslot : x.slot = u.slot)
    (hst : x.state = .calibrating) (hc : x.caused = false) (hint : interval ≠ 0) :
    settleDp slot (putDp (x.timerAfter interval now k) s)
      = putDp { ({ x with calStart := some now } : DpUnit).reload s.clock.us with state := .working } s := by
  have htimer : x.timerAfter interval now k = { x with calStart := some now } := by
    simp only [DpUnit.timerAfter, if_neg hint, hc, Bool.false_eq_true, and_false, if_false]
  rw [htimer, settleDp_works (dpAt_putDp (v := { x with calStart := some now }) hu hslot) hc (by rw [hst]; decide)]
  exact putDp_putDp (u := { x with calStart := some now }) (by rfl) s

/-- Without a cause left the end of a sweep is its reply and the record of a WORKING DP (R8, R13, R19). -/
theorem endSweep_works {k : SweepKind} {near far : SweepResult} (hu : dpAt s slot = some u) (hth : u.thresholds = true) (hst : u.state = .calibrating)
    (hsup : u.supplyCause = false) (hun : u.unorderedCause = false) (hint : s.cfg.timing.calInterval ≠ 0) :
    endSweep slot k near far levels s
      = sweepReply k near far (putDp (u.atSweepEnd k levels s.clock.us s.clock.ms) s) := by
  have hafter : u.thresholdAfter k = false := by cases k <;> simp [DpUnit.thresholdAfter, hth]
  have hc : u.uncaused.caused = false := by simp [DpUnit.caused, DpUnit.uncaused, hsup]
  have hend : endSweep slot k near far levels s = sweepReply k near far (settleDp slot (putDp (DpUnit.timerAfter s.cfg.timing.calInterval s.clock.ms k
      (if k = .start then (u.uncaused.firstLevels levels).reload s.clock.us
        else u.uncaused.sweptResumes k (otherHead u.nearer) levels)) s)) := by
    simp only [endSweep, hu, hafter, hun, Bool.false_and]
    rfl
  rw [hend]
  congr 1
  unfold DpUnit.atSweepEnd
  by_cases hk : k = .start
  · rw [if_pos hk, if_pos hk, settleDp_timer ((u.uncaused.firstLevels levels).reload s.clock.us) hu rfl hst hc hint]
  · have hres : u.uncaused.sweptResumes k (otherHead u.nearer) levels
        = u.uncaused.mapHead (Head.takeLevel (levelAt levels (otherHead u.nearer))) (otherHead u.nearer) := by
      rw [DpUnit.sweptResumes, hc]
      rfl
    rw [if_neg hk, if_neg hk, hres, settleDp_timer _ hu (DpUnit.mapHead_slot u.uncaused _ _) ((DpUnit.mapHead_state u.uncaused _ _).trans hst)
      ((DpUnit.mapHead_caused u.uncaused _ _).trans hc) hint]

/-- The record of a DP whose second head has had a threshold accepted. -/
def DpUnit.secondAccepted (n : Nat) (u : DpUnit) : DpUnit := u.mapHead (fun h => { h with threshold := some n }) (otherHead u.nearer)

theorem DpUnit.secondAccepted_threshold (n : Nat) (u : DpUnit) : ((u.secondAccepted n).head (otherHead u.nearer)).threshold = some n := by
  rw [DpUnit.secondAccepted, DpUnit.head_mapHead_same]

theorem DpUnit.secondAccepted_near_threshold (n : Nat) (u : DpUnit) : ((u.secondAccepted n).head u.nearer).threshold = (u.head u.nearer).threshold := by
  rw [DpUnit.secondAccepted, DpUnit.head_other_mapHead]

@[simp] theorem DpUnit.secondAccepted_nearer (n : Nat) (u : DpUnit) : (u.secondAccepted n).nearer = u.nearer := DpUnit.mapHead_nearer _ _ _
@[simp] theorem DpUnit.secondAccepted_nearSecond (n : Nat) (u : DpUnit) : (u.secondAccepted n).nearSecond = u.nearSecond := DpUnit.mapHead_nearSecond _ _ _

/-- What holds of the nearer head and of the other holds of both. -/
theorem bothHeads_iff {P : HeadPos → Prop} (p : HeadPos) : (∀ q, P q) ↔ P p ∧ P (otherHead p) := by
  refine ⟨fun h => ⟨h _, h _⟩, fun ⟨h1, h2⟩ q => ?_⟩
  cases p <;> cases q <;> assumption

theorem DpUnit.thresholds_iff {u : DpUnit} : u.thresholds = true ↔ ∀ q, (u.head q).threshold.isSome = true := by
  rw [bothHeads_iff .first]
  exact Bool.and_eq_true_iff

theorem dpAt_secondAccepted (n : Nat) (hu : dpAt s slot = some u) :
    dpAt (enterResult slot (otherHead u.nearer) (.accepted n) s) slot = some (u.secondAccepted n) := by
  rw [enterResult_accepted hu, dpAt_congr (clearCond_dps _ _)]
  exact dpAt_putDp hu (DpUnit.mapHead_slot _ _ _)

/-- The boundary of the second head, accepted, ends the sweep of a DP without another cause (R8, R10, R19). -/
theorem windowEnd_ends {lowest n : Nat} (hu : dpAt s slot = some u) (hw : u.sweep = some w) (hwait : w.waiting = false) (h2 : w.onOther = true)
    (hlow : lowest < w.trial) (hn : n + s.cfg.timing.calMargin = w.trial) (h4 : 4 ≤ n)
    (hq : ∀ q : Nat, (u.head (otherHead u.nearer)).threshold = some q → n ≤ q + 12 ∧ q ≤ n + 12) (hnear : (u.head u.nearer).threshold.isSome = true)
    (hst : u.state = .calibrating) (hsup : u.supplyCause = false) (hun : u.unorderedCause = false) (hint : s.cfg.timing.calInterval ≠ 0) :
    windowEnd slot lowest levels s
      = sweepReply w.kind (w.nearResult.getD .notRun) (.accepted n)
          (putDp ((u.secondAccepted n).atSweepEnd w.kind levels s.clock.us s.clock.ms)
            (enterResult slot (otherHead u.nearer) (.accepted n) s)) := by
  have hv := dpAt_secondAccepted n hu
  have hclock : (enterResult slot (otherHead u.nearer) (.accepted n) s).clock = s.clock := enterResult_kept _ _ _ _ .clock (by decide)
  have hcfg : (enterResult slot (otherHead u.nearer) (.accepted n) s).cfg = s.cfg := enterResult_kept _ _ _ _ .cfg (by decide)
  have hths : (u.secondAccepted n).thresholds = true := by
    rw [DpUnit.thresholds_iff, bothHeads_iff u.nearer, DpUnit.secondAccepted_near_threshold, DpUnit.secondAccepted_threshold]
    exact ⟨hnear, rfl⟩
  have hswept : u.sweptHead w = otherHead u.nearer := if_pos h2
  have hdone : headDone slot w (.accepted n) levels s
      = endSweep slot w.kind (w.nearResult.getD .notRun) (.accepted n) levels (enterResult slot (otherHead u.nearer) (.accepted n) s) := by
    simp only [headDone, hu, h2, if_true]
  rw [windowEnd_boundary hu hw hwait hlow, hswept, judgeHead_accepted hn h4 hq, hdone,
    endSweep_works hv hths ((DpUnit.mapHead_state _ _ _).trans hst) ((DpUnit.mapHead_supplyCause _ _ _).trans hsup)
      ((DpUnit.mapHead_unorderedCause _ _ _).trans hun) (by rw [hcfg]; exact hint), hclock]

/-- The DP that PROBE_WINDOW_END leaves is that of the window's end. -/
theorem dpAt_event_windowEnd {dt lowest : Nat} {f : State → Work} {k : SweepKind} {x y : SweepResult} {v : DpUnit} {s1 : State} (hp : s.powered = true)
    (hf : f (advance dt s) = (leaveCalibrating (windowEnd slot lowest levels (advance dt s)), []))
    (hend : windowEnd slot lowest levels (advance dt s) = sweepReply k x y (putDp v s1)) (hu : dpAt s1 slot = some u) (hslot : v.slot = u.slot) :
    dpAt (event dt s f) slot = some v := by
  rw [dpAt_event hp, hf, dpAt_congr (leaveCalibrating_kept _ .dps (by decide)), hend, dpAt_congr (sweepReply_kept _ _ _ _ .dps (by decide))]
  exact dpAt_putDp hu hslot

/-- The end of the last START sweep leaves CALIBRATING for HAILING (R87). -/
theorem leaveCalibrating_hails (hj : s.join.state = .calibrating) (hw : ∀ u ∈ s.dps, u.sweep = none) : (leaveCalibrating s).join.state = .hailing := by
  have hany : (s.dps.any fun u => u.sweep.any fun w => w.kind == .start) = false :=
    List.any_eq_false.2 fun u hu => by simp [hw u hu]
  have hleave : leaveCalibrating s = enterHailing s := if_pos ⟨hj, by rw [hany]; rfl⟩
  rw [hleave, enterHailing, request_kept _ _ .join (by decide)]
  rfl

end

theorem putDp_dps_single {s : State} {u v : DpUnit} (h : s.dps = [u]) (hv : v.slot = u.slot) : (putDp v s).dps = [v] := by
  simp [putDp, h, hv]

theorem secondAccepted_dps_single {slot : Slot} {s : State} {u : DpUnit} (n : Nat) (hu : dpAt s slot = some u) (hd : s.dps = [u]) :
    (enterResult slot (otherHead u.nearer) (.accepted n) s).dps = [u.secondAccepted n] := by
  rw [enterResult_accepted hu, clearCond_dps]
  exact putDp_dps_single hd (DpUnit.mapHead_slot _ _ _)

/-- Settles O24: the end of a sweep at its second head's accepted boundary, by the kind of the sweep. -/
theorem sweepEndReturnsTheDpToWorking : Obligations.SweepEndReturnsTheDpToWorking := by
  constructor
  · intro dt slot lowest levels s u w n hp hu hw hk hwait h2 hr h5 hlow _ hn h4 hq hnear hst hsup hun hint
    obtain ⟨f, hex, hf⟩ := exec_probeWindowEnd (lowest := lowest) (levels := levels) hu hw hr h5
    have hend := windowEnd_ends (s := advance dt s) (levels := levels) hu hw hwait h2 hlow hn h4 hq hnear hst hsup hun hint
    have hat := dpAt_event_windowEnd hp hf hend (dpAt_secondAccepted n hu) (DpUnit.atSweepEnd_slot _ _ _ _ _)
    have hrecog := DpUnit.atSweepEnd_recog w.kind levels (advance dt s).clock.us (advance dt s).clock.ms (u.secondAccepted n)
    rw [DpUnit.secondAccepted_nearSecond] at hrecog
    obtain ⟨hth, hcov⟩ := DpUnit.atSweepEnd_head_other (u := u.secondAccepted n) hk
      (by rw [DpUnit.secondAccepted_nearer]; exact DpUnit.secondAccepted_threshold n u) levels (advance dt s).clock.us (advance dt s).clock.ms
    rw [DpUnit.secondAccepted_nearer] at hth hcov
    refine ⟨_, _, hex, hat, DpUnit.atSweepEnd_state _ _ _ _ _, DpUnit.atSweepEnd_sweep _ _ _ _ _, hth, hcov, hrecog,
      DpUnit.atSweepEnd_calStart _ _ _ _ _, fun hkind => ?_⟩
    rw [event_port hp, hf, leaveCalibrating_kept _ .port (by decide), hend]
    rcases hkind with h | h <;> rw [h] <;> rfl
  · intro dt slot lowest levels s u w n m hp hu hw hk hwait h2 hr h5 hlow hn h4 hq hm hst hsup hun hint
    obtain ⟨f, hex, hf⟩ := exec_probeWindowEnd (lowest := lowest) (levels := levels) hu hw hr h5
    have hend := windowEnd_ends (s := advance dt s) (levels := levels) hu hw hwait h2 hlow hn h4 hq (by rw [hm]; rfl) hst hsup hun hint
    rw [hk] at hend
    have hat := dpAt_event_windowEnd hp hf hend (dpAt_secondAccepted n hu) (DpUnit.atSweepEnd_slot _ _ _ _ _)
    have hrecog := DpUnit.atSweepEnd_recog .start levels (advance dt s).clock.us (advance dt s).clock.ms (u.secondAccepted n)
    rw [DpUnit.secondAccepted_nearSecond] at hrecog
    obtain ⟨hft, hfc, hfl⟩ := DpUnit.atSweepEnd_head_start (DpUnit.secondAccepted_threshold n u) levels (advance dt s).clock.us (advance dt s).clock.ms
    obtain ⟨hnt, hnc, hnl⟩ := DpUnit.atSweepEnd_head_start ((DpUnit.secondAccepted_near_threshold n u).trans hm) levels (advance dt s).clock.us
      (advance dt s).clock.ms
    have htaken := (bothHeads_iff (P := fun q => (DpUnit.head _ q).levelTaken = true) u.nearer).2 ⟨hnl, hfl⟩
    refine ⟨_, _, hex, hat, DpUnit.atSweepEnd_state _ _ _ _ _, DpUnit.atSweepEnd_sweep _ _ _ _ _, hft, hnt, hfc, hnc, htaken .first, htaken .second,
      hrecog, DpUnit.atSweepEnd_calStart _ _ _ _ _, fun hd hj => ?_⟩
    rw [event_join hp, hf]
    refine leaveCalibrating_hails ((congrArg JoinUnit.state (windowEnd_kept _ _ _ _ .join (by decide))).trans hj) fun v hv => ?_
    rw [hend, sweepReply_kept _ _ _ _ .dps (by decide), putDp_dps_single (secondAccepted_dps_single (s := advance dt s) n hu hd) (DpUnit.atSweepEnd_slot _ _ _ _ _),
      List.mem_singleton] at hv
    rw [hv]
    exact DpUnit.atSweepEnd_sweep _ _ _ _ _

/-! ### Abandonment (R11, R12) -/

section

variable {slot : Slot} {levels : Levels} {s : State} {u : DpUnit} {w : Sweep}

/-- A sample below the threshold of the head that is not under sweep abandons the sweep (R9, R11). -/
theorem abandoned_watchedHead {level th : Nat} (hw : u.sweep = some w) (hwait : w.waiting = false)
    (hth : (u.head (otherHead (u.sweptHead w))).threshold = some th) (hlow : level < th) : abandoned s u (.watchedHead level) = true := by
  have hswept : u.swept = some (u.sweptHead w) := by
    simp only [DpUnit.swept, hw, hwait]
    rfl
  have hwatched : u.watched = some (otherHead (u.sweptHead w)) := by
    simp only [DpUnit.watched, hswept, hth]
    rfl
  rw [abandoned, hwatched]
  exact (Head.reads_of_threshold hth level).trans (decide_eq_true hlow)

/-- The work of SWEEP_ABANDONED where the abandonment has come about. -/
theorem exec_sweepAbandoned {dt : Nat} {cause : AbandonCause} (hu : dpAt s slot = some u) (hw : u.sweep = some w)
    (ha : abandoned (advance dt s) u cause = true) :
    ∃ f, exec (.sweepAbandoned dt slot cause levels) s = .next (event dt s f)
      ∧ f (advance dt s) = (if w.kind = .start then leaveCalibrating (abandonStart slot u w levels (setLatch .calAbandoned (advance dt s)))
          else abandonSweep slot u w levels (setLatch .calAbandoned (advance dt s)), []) := by
  have hu' : dpAt (advance dt s) slot = some u := hu
  refine ⟨_, rfl, ?_⟩
  simp only [plain_apply, hu', hw, ha, if_true]

/-- A START sweep that waits after an abandonment of its second head (R12). -/
def Sweep.waits (now : Time) (w : Sweep) : Sweep := { w with abandons := w.abandons + 1, waiting := true, trial := 0, windowStart := now }

/-- A DP whose PERIODIC or COMMANDED sweep is over and due again (R8, R11). -/
def DpUnit.dueAgain (u : DpUnit) : DpUnit := { u with sweep := none, due := true, thresholdCause := false }

/-- A DP that the abandonment of its sweep takes back to WORKING: the swept head has its level, its sweep is due again (R8, R11, R17). -/
def DpUnit.sweepAbandoned (levels : Levels) (w : Sweep) (us : Time) (u : DpUnit) : DpUnit :=
  { (u.dueAgain.mapHead (Head.takeLevel (levelAt levels (u.sweptHead w))) (u.sweptHead w)).reload us with state := .working }

theorem DpUnit.sweepAbandoned_kept (levels : Levels) (w : Sweep) (us : Time) (u : DpUnit) :
    (u.sweepAbandoned levels w us).slot = u.slot ∧ (u.sweepAbandoned levels w us).sweep = none ∧ (u.sweepAbandoned levels w us).due = true :=
  ⟨DpUnit.mapHead_slot _ _ _, DpUnit.mapHead_sweep _ _ _, DpUnit.mapHead_due _ _ _⟩

theorem DpUnit.sweepAbandoned_threshold (levels : Levels) (w : Sweep) (us : Time) (u : DpUnit) :
    ((u.sweepAbandoned levels w us).head (u.sweptHead w)).threshold = (u.head (u.sweptHead w)).threshold := by
  unfold DpUnit.sweepAbandoned
  cases u.sweptHead w <;> exact (Head.markLevel_threshold _).trans (Head.takeLevel_threshold _ _)

/-- The abandonment of a PERIODIC or COMMANDED sweep at a DP without a cause: its reply and the record of a WORKING DP (R11, R13). -/
theorem abandonSweep_works (hu : dpAt s slot = some u) (hk : w.kind = .periodic ∨ w.kind = .commanded) (hst : u.state = .calibrating)
    (hsup : u.supplyCause = false) (hth : u.thresholdCause = false) (hun : u.unorderedCause = false) :
    abandonSweep slot u w levels s
      = sweepReply w.kind (abandonResults w).1 (abandonResults w).2 (putDp (u.sweepAbandoned levels w s.clock.us) s) := by
  have hc : u.dueAgain.caused = false := by simp [DpUnit.dueAgain, DpUnit.caused, hsup, hun]
  have hdue : (if w.kind = SweepKind.recovery then u.due else true) = true := if_neg (by rcases hk with h | h <;> rw [h] <;> decide)
  have hres : u.dueAgain.sweptResumes w.kind (u.sweptHead w) levels
      = u.dueAgain.mapHead (Head.takeLevel (levelAt levels (u.sweptHead w))) (u.sweptHead w) := by
    rw [DpUnit.sweptResumes, hc]
    rfl
  have hsettle := settleDp_works (dpAt_putDp (s := s) hu (DpUnit.mapHead_slot u.dueAgain (Head.takeLevel (levelAt levels (u.sweptHead w))) (u.sweptHead w)))
    ((DpUnit.mapHead_caused _ _ _).trans hc) (by rw [DpUnit.mapHead_state]; simp [DpUnit.dueAgain, hst])
  rw [putDp_putDp (by rfl)] at hsettle
  simp only [abandonSweep, hdue, hth, Bool.false_and]
  congr 1
  exact (congrArg (fun x => settleDp slot (putDp x s)) hres).trans hsettle

end

/-- Settles O25: the abandonment that the watched head's sample brings, by the kind of the sweep. -/
theorem watchedHeadAbandonsTheSweep : Obligations.WatchedHeadAbandonsTheSweep := by
  intro dt slot level th levels s u w p hp hu hw hwait hpos hth hlow
  have hswept : p = u.sweptHead w := hpos
  subst hswept
  have hu' : dpAt (setLatch .calAbandoned (advance dt s)) slot = some u := hu
  obtain ⟨f, hex, hf⟩ := exec_sweepAbandoned (levels := levels) hu hw (abandoned_watchedHead (s := advance dt s) hw hwait hth hlow)
  constructor
  · intro hk hst hsup hthc hun
    have hns : w.kind ≠ .start := by rcases hk with h | h <;> rw [h] <;> decide
    rw [if_neg hns, abandonSweep_works hu' hk hst hsup hthc hun] at hf
    obtain ⟨hslot, hsweep, hdue⟩ := DpUnit.sweepAbandoned_kept levels w (advance dt s).clock.us u
    refine ⟨_, u.sweepAbandoned levels w (advance dt s).clock.us, hex, ?_, ?_, hsweep, hdue, rfl, DpUnit.sweepAbandoned_threshold _ _ _ _,
      fun hcmd => ?_⟩
    · rw [event_latches hp, hf, sweepReply_kept _ _ _ _ .latches (by decide)]
      rfl
    · rw [dpAt_event hp, hf, dpAt_congr (sweepReply_kept _ _ _ _ .dps (by decide))]
      exact dpAt_putDp hu' hslot
    · rw [event_port hp, hf]
      exact sweepReply_abandoned (.inl hcmd)
  · intro hk _ hab
    have hstart : abandonStart slot u w levels (setLatch .calAbandoned (advance dt s))
        = putDp { u with sweep := some (w.waits (advance dt s).clock.us) } (setLatch .calAbandoned (advance dt s)) := if_neg (by omega)
    have hat : dpAt (putDp { u with sweep := some (w.waits (advance dt s).clock.us) } (setLatch .calAbandoned (advance dt s))) slot
        = some { u with sweep := some (w.waits (advance dt s).clock.us) } := dpAt_putDp hu' rfl
    rw [if_pos hk, hstart, leaveCalibrating_stays hat rfl (.inr hk)] at hf
    exact ⟨_, hex, event_concluded hp hf rfl rfl rfl⟩

end Sys2Proof.Machine
end

section
/-! ## The reading commands of the maintainer port (R5, R103, R187, R195, R196) -/

namespace Sys2Proof.Machine

section

variable {dt : Nat} {s : State} {cmd : PortCmd}

/-- A command answered with one reply at a free port outside LOADING changes the port alone (R195). -/
theorem event_answered {r : State → Reply} {code : ReplyCode} {content : Content} (hp : s.powered = true) (hf : portTaken s = false)
    (hj : s.join.state ≠ .loading) (hr : r (advance dt s) = { code := code, content := content }) :
    Concluded (noted cmd code content (advance dt s)) (event dt s (plain (answered cmd r))) :=
  event_takeCommand (act := fun s => putPort cmd (some (r s)) s) hp hf hj (congrArg (fun x => putPort cmd (some x) (advance dt s)) hr) rfl rfl rfl

/-- In LOADING a command other than RESTART is answered REFUSED_STATE (R195). -/
theorem event_loading {act : State → State} (hp : s.powered = true) (hf : portTaken s = false) (hj : s.join.state = .loading) (hc : cmd ≠ .restart) :
    Concluded (noted cmd .refusedState .empty (advance dt s)) (event dt s (plain (takeCommand cmd act))) :=
  event_concluded hp (congrArg (·, []) (takeCommand_loading (s := advance dt s) hf hj hc)) rfl rfl rfl

/-- The passing of time leaves what READ MISMATCHES tells of the peers (R103). -/
theorem advance_mismatchLines (dt : Nat) (s : State) : (advance dt s).peers.map Peer.mismatchLine = s.peers.map Peer.mismatchLine := by
  simp only [advance, List.map_map]
  rfl

/-- The phase unit watches no sticky field of a peer (R106). -/
theorem phaseInputsChanged_unstick {s1 : State} (hs : s1.sections = s.sections) (hp : s1.peers = s.peers.map Peer.unstick) :
    phaseInputsChanged s s1 = false := by
  have hw : Peer.watched ∘ Peer.unstick = Peer.watched := rfl
  simp [phaseInputsChanged, hs, hp, hw]

/-- Work that gives no signal and changes nothing that the phase unit watches is followed by nothing but the conclusion. -/
theorem event_unwatched {s1 : State} {f : State → Work} (hp : s.powered = true) (hf : f (advance dt s) = (s1, []))
    (hw : phaseInputsChanged (advance dt s) s1 = false) (hff : s1.firstFault = (advance dt s).firstFault) : Concluded s1 (event dt s f) := by
  rw [event_eq hp, hf]
  dsimp only
  rw [hw]
  exact conclude_concluded hff

/-- READ LATCHES leaves no latch set (R187). -/
theorem Latches.reset_has (l : Latch) : Latches.reset.has l = false := by cases l <;> rfl

end

/-- Settles O55: each reading command is one reply with its one clearing; in LOADING every command of the list is refused. -/
theorem readingCommandsAnswer : Obligations.ReadingCommandsAnswer := by
  intro dt s hp hf
  constructor
  · intro hj
    refine ⟨⟨_, rfl, event_answered hp hf hj rfl⟩, ⟨_, rfl, event_answered hp hf hj rfl⟩, ⟨_, rfl, event_takeCommand hp hf hj rfl rfl rfl rfl⟩, ?_, ?_,
      ⟨_, rfl, event_answered hp hf hj rfl⟩, ?_, ?_⟩
    · exact fun hsig => ⟨_, rfl, event_answered hp hf hj (if_pos hsig)⟩
    · exact fun hsig => ⟨_, rfl, event_answered hp hf hj (if_neg (ne_true_of_eq_false hsig))⟩
    · have hcon : Concluded { noted .readLatches .done (.latches s.latches) (advance dt s) with latches := Latches.reset }
          (event dt s (plain (takeCommand .readLatches fun s =>
            { putPort .readLatches (some (done (.latches s.latches))) s with latches := Latches.reset }))) :=
        event_takeCommand hp hf hj rfl rfl rfl rfl
      have hlatches : (event dt s _).latches = Latches.reset := hcon.kept .latches (by decide)
      refine ⟨_, rfl, fun l => ?_, ?_⟩
      · rw [hlatches]
        exact Latches.reset_has l
      · rw [hlatches]
        exact hcon
    · refine ⟨_, rfl, event_unwatched hp ?_ (phaseInputsChanged_unstick rfl rfl) rfl⟩
      rw [plain_apply, takeCommand_free (s := advance dt s) hf hj, advance_mismatchLines]
      rfl
  · intro hj n k e he
    simp only [List.mem_cons, List.not_mem_nil, or_false] at he
    rcases he with rfl | rfl | rfl | rfl | rfl | rfl | rfl | rfl | rfl | rfl <;> exact ⟨_, rfl, event_loading hp hf hj nofun⟩

end Sys2Proof.Machine
end

section
/-! ## Station times compared (R30) -/

namespace Sys2Proof.Machine

theorem time_sub_toNat (x y : Time) : (y - x).toNat = (y.toNat + 2 ^ 32 - x.toNat) % 2 ^ 32 := by
  rw [BitVec.toNat_sub]
  have := x.isLt
  congr 1
  omega

theorem earlier_iff {x y : Time} : earlier x y = true ↔ 0 < (y - x).toNat ∧ (y - x).toNat < 2 ^ 31 := by
  simp only [earlier, Bool.and_eq_true, decide_eq_true_eq]

theorem reached_iff {now t : Time} : reached now t = true ↔ t = now ∨ earlier t now = true := by
  rw [earlier_iff, reached, decide_eq_true_eq]
  constructor
  · intro h
    by_cases h0 : (now - t).toNat = 0
    · exact .inl (by bv_omega)
    · exact .inr ⟨Nat.pos_of_ne_zero h0, h⟩
  · rintro (rfl | ⟨-, h⟩)
    · simp
    · exact h

/-- Settles O26: the word difference is the difference modulo 2^32. -/
theorem timesCompareModulo2To32 : Obligations.TimesCompareModulo2To32 := by
  intro x y
  rw [← time_sub_toNat]
  exact ⟨earlier_iff, reached_iff⟩

end Sys2Proof.Machine
end

section
/-! ## Section records through an event: a record read after its change, the signals that follow (R42, R58, R106) -/

namespace Sys2Proof.Machine

theorem sectAt_congr {s t : State} (h : t.sections = s.sections) (id : Nat) : sectAt t id = sectAt s id := by
  simp only [sectAt, h]

/-- A change of records that keeps their ids is read at each id. -/
theorem sectAt_map {s t : State} {g : Sect → Sect} (hg : ∀ q, (g q).id = q.id) (h : t.sections = s.sections.map g) (id : Nat) :
    sectAt t id = (sectAt s id).map g := by
  have hp : (fun r : Sect => r.id == id) ∘ g = fun r => r.id == id := funext fun q => by simp [hg]
  simp only [sectAt, h, List.find?_map, hp]

/-- A record that has been changed is read back at its id. -/
theorem sectAt_mapSect {id : Nat} {f : Sect → Sect} {s : State} {r : Sect} (hf : (f r).id = r.id) (h : sectAt s id = some r) :
    sectAt (mapSect id f s) id = some (if declaredLockout s then r.stay (f r) else f r) := by
  have hid : (if declaredLockout s then r.stay (f r) else f r).id = id := by
    rw [← sectAt_id h]
    split <;> simp [hf]
  simp only [mapSect, h]
  generalize (if declaredLockout s then r.stay (f r) else f r) = q at hid ⊢
  have hput := putSect_sections (r := q) (by rw [hid]; exact h)
  rw [sectAt_map (fun p => by split <;> simp_all) hput, h, Option.map_some, if_pos ((sectAt_id h).trans hid.symm)]

/-- A change of a record that is CLEAR is whole in declared lockout too (R190). -/
theorem Sect.stay_of_clear {before : Sect} (h : before.state = .clear) (after : Sect) : before.stay after = after := by
  rcases Sect.stay_cases before after with he | ⟨hs, -⟩ | ⟨hs, -⟩
  · exact he
  · rw [h] at hs
    exact absurd hs (by decide)
  · rw [h] at hs
    exact absurd hs (by decide)

/-- A change that is whole, outside declared lockout or of a CLEAR record, is read back as it was made. -/
theorem sectAt_mapSect_whole {id : Nat} {f : Sect → Sect} {s : State} {r q : Sect} (hw : declaredLockout s = false ∨ r.state = .clear)
    (h : sectAt s id = some r) (hq : f r = q) (hid : q.id = r.id) : sectAt (mapSect id f s) id = some q := by
  subst hq
  rw [sectAt_mapSect hid h]
  rcases hw with hw | hw
  · rw [hw]
    rfl
  · rw [Sect.stay_of_clear hw, ite_self]

/-- Of the phase unit the change of a section record reaches the held-by-release set alone (R121). -/
theorem mapSect_phaseUnit (id : Nat) (f : Sect → Sect) (s : State) : ∃ l, (mapSect id f s).phase = { s.phase with heldByRelease := l } := by
  have hh (x y : Sect) (t : State) : ∃ l, (heldCleared x y t).phase = { t.phase with heldByRelease := l } := by
    unfold heldCleared
    split
    · exact ⟨_, clearCond_phase _ _⟩
    · exact ⟨_, rfl⟩
  unfold mapSect
  split
  · exact ⟨_, rfl⟩
  · unfold putSect
    split
    · exact ⟨_, rfl⟩
    · dsimp only
      obtain ⟨l, hl⟩ := hh _ _ _
      exact ⟨l, by rw [hl, islandCleared_kept _ _ _ .phase (by decide), sectConds_kept _ _ _ _ .phase (by decide)]⟩

theorem ReleaseShut.congr {s t : State} (h : t.phase = s.phase) (hs : ReleaseShut s) : ReleaseShut t := by
  unfold ReleaseShut
  rw [h]
  exact hs

theorem ReleaseShut.mapSect {s : State} (h : ReleaseShut s) (id : Nat) (f : Sect → Sect) : ReleaseShut (mapSect id f s) := by
  obtain ⟨l, hl⟩ := mapSect_phaseUnit id f s
  unfold ReleaseShut
  rw [hl]
  exact h

/-! ### Records through the handling of signals -/

/-- A record stays whole through the handling of signals where no release can be made. -/
theorem sectShut_stable (id : Nat) (r : Sect) : SignalStable fun s => ReleaseShut s ∧ sectAt s id = some r where
  still _ hs _ hsh := fun ⟨h, hr⟩ => ⟨hsh h, (sectAt_congr hs id).trans hr⟩
  clears _ := fun ⟨h, hr⟩ => ⟨h.congr (clearCond_phase _ _), (sectAt_congr (clearCond_sections _ _) id).trans hr⟩
  raises _ := fun ⟨h, hr⟩ => ⟨h.congr (raiseCond_phase _ _), (sectAt_congr (raiseCond_sections _ _) id).trans hr⟩
  releases hrel := fun ⟨h, _⟩ => absurd hrel (by rw [h.not_holds]; decide)

/-- The record of an id has a property. -/
def SectHas (id : Nat) (P : Sect → Prop) (s : State) : Prop := ∃ q, sectAt s id = some q ∧ P q

theorem SectHas.congr {id : Nat} {P : Sect → Prop} {s t : State} (h : t.sections = s.sections) (hs : SectHas id P s) : SectHas id P t := by
  unfold SectHas
  rw [sectAt_congr h]
  exact hs

/-- A property that the held flag does not touch stays through a release. -/
theorem SectHas.makeRelease {id : Nat} {P : Sect → Prop} {s : State} (hP : ∀ q, P q → P q.hold) (h : SectHas id P s) :
    SectHas id P (makeRelease s) := by
  refine List.foldlRecOn _ _ h fun t ht i _ => ?_
  have hsec : (releaseOne t i).sections = (Machine.mapSect i Sect.hold t).sections := raiseCond_sections _ _
  refine SectHas.congr hsec ?_
  cases hr : sectAt t i with
  | none => rwa [mapSect_of_none hr]
  | some r =>
    obtain ⟨q, hq, hPq⟩ := ht
    rw [mapSect_hold hr]
    refine ⟨_, (sectAt_map (fun p => by split <;> simp_all [Sect.hold]) rfl id).trans (congrArg _ hq), ?_⟩
    split
    · have hid : i = id := (sectAt_id hr).symm.trans ((Eq.symm ‹_›).trans (sectAt_id hq))
      rw [hid, hq] at hr
      exact hP r (Option.some.inj hr ▸ hPq)
    · exact hPq

/-- Such a property stays through the handling of signals. -/
theorem sectHas_stable {id : Nat} {P : Sect → Prop} (hP : ∀ q, P q → P q.hold) : SignalStable (SectHas id P) where
  still _ hs _ _ h := h.congr hs
  clears _ h := h.congr (clearCond_sections _ _)
  raises _ h := h.congr (raiseCond_sections _ _)
  releases _ h := h.makeRelease hP

/-- SECTION_UNKNOWN and SECTION_DISTURBED stay through the handling of signals: they rank above whatever that raises (R173). -/
theorem sectionCond_stable {k : CondKind} (hk : k = .sectionUnknown ∨ k = .sectionDisturbed) (id : Nat) :
    SignalStable fun s => hasCond s (condOf k id 0) = true where
  still hc _ _ _ h := (hasCond_congr hc _).trans h
  clears hm h := (hasCond_clearCond_kind (fun he => by rw [← he] at hm; revert hm; rcases hk with rfl | rfl <;> simp [signalKinds]) _).trans h
  raises hm h := by
    refine hasCond_raiseCond_of_hasCond (.inr (Nat.le_of_lt ?_)) h
    simp only [signalConds, List.mem_cons, List.not_mem_nil, or_false] at hm
    rcases hm with rfl | rfl | rfl | rfl | rfl | rfl | rfl <;> exact condOf_rank_lt (by rcases hk with rfl | rfl <;> decide) _ _ _ _
  releases _ h := hasCond_makeRelease (fun _ => (condOf_rank_lt (by rcases hk with rfl | rfl <;> decide) _ _ _ _).le) h

theorem length_clearIf_le (p : Prop) [Decidable p] (c : CondId) (s : State) : (if p then clearCond c s else s).conds.length ≤ s.conds.length := by
  split
  · exact length_clearCond_le _ _
  · exact le_rfl

/-- With room in the set the condition of the state that a section enters stands (R42). -/
theorem hasCond_sectConds_entered {x y : SectState} {id : Nat} {s : State} {k : CondKind} (hxy : x ≠ y) (hl : s.conds.length < 31)
    (hk : (y = .unknown ∧ k = .sectionUnknown) ∨ (y = .disturbed ∧ k = .sectionDisturbed)) :
    hasCond (sectConds x y id s) (condOf k id 0) = true := by
  unfold sectConds
  rw [if_neg hxy]
  extract_lets s1 s2 s3
  have h2 : s2.conds.length < 31 := ((length_clearIf_le _ _ _).trans (length_clearIf_le _ _ _)).trans_lt hl
  rcases hk with ⟨rfl, rfl⟩ | ⟨rfl, rfl⟩
  · exact hasCond_raiseCond h2
  · exact hasCond_raiseCond (s := s3) h2

theorem hasCond_mapSect_entered {id : Nat} {f : Sect → Sect} {s : State} {r : Sect} {k : CondKind} (hd : declaredLockout s = false)
    (hf : (f r).id = r.id) (h : sectAt s id = some r) (hne : r.state ≠ (f r).state) (hl : s.conds.length < 31)
    (hk : ((f r).state = .unknown ∧ k = .sectionUnknown) ∨ ((f r).state = .disturbed ∧ k = .sectionDisturbed)) :
    hasCond (mapSect id f s) (condOf k id 0) = true := by
  have hid : (f r).id = id := hf.trans (sectAt_id h)
  have hkind : k ≠ .lateArrival ∧ k ≠ .longClosure := by
    rcases hk with ⟨-, rfl⟩ | ⟨-, rfl⟩ <;> exact ⟨by decide, by decide⟩
  simp only [mapSect, h, hd, Bool.false_eq_true, if_false, putSect, hid]
  rw [hasCond_heldCleared hkind.2, hasCond_islandCleared hkind.1]
  exact hasCond_sectConds_entered hne hl hk

end Sys2Proof.Machine
end

section
/-! ## An inward axle at an outer DP (R26, R31, R43, R50, R51) -/

namespace Sys2Proof.Machine

theorem dpOuter_iff {d : Nat} : dpOuter d = true ↔ d % 4 = 0 ∨ d % 4 = 3 := by
  simp [dpOuter]

/-- An outer DP bounds its approach section and no other (R40). -/
theorem boundedBy_outer {d : Nat} (h : dpOuter d = true) : boundedBy d = [crossingSide d] := by
  rcases dpOuter_iff.1 h with h | h <;> simp [boundedBy, crossingSide, h]

/-- An axle inward at an outer DP enters its approach section at the far end (R43). -/
theorem movesOf_outer_inward {d : Nat} (h : dpOuter d = true) : movesOf d (crossingSide d) 1 0 = { far := 1, near := 0, outs := 0 } := by
  rw [movesOf, if_pos rfl, if_pos h]

/-- An approach section that is CLEAR, as its removals leave it (R50): no axle, no tag, no deadline, not held. -/
structure Sect.Vacant (r : Sect) : Prop where
  approach : r.kind ≠ .island
  clear : r.state = .clear
  balance : r.balance = 0
  tag : r.tag = none
  deadline : r.deadline = none
  held : r.held = false

/-- An approach section OCCUPIED from its far end by one axle (R50, R51). -/
def Sect.enteredFar (r : Sect) : Sect := { r with state := .occupied, tag := some .far, balance := 1 }

theorem Sect.Vacant.applyMoves {r : Sect} (h : r.Vacant) (now : Time) (minSweep : Nat) (usable : Bool) :
    r.applyMoves now minSweep usable { far := 1, near := 0, outs := 0 } = r.enteredFar := by
  have ha : r.isApproach = true := bne_iff_ne.2 h.approach
  have hcount : r.count minSweep usable { far := 1, near := 0, outs := 0 } = r.enteredFar := by
    simp [Sect.count, Sect.effective, h.clear, h.balance, Moves.any, Sect.withEffective, Sect.enteredFar, ha, h.tag, tagAfter]
  simp [Sect.applyMoves, hcount, h.held, Sect.enteredFar]

/-- A baseline set is one field of the record. -/
theorem Sect.setBase_cases (d : Nat) (c : Option Counts) (r : Sect) :
    r.setBase d c = { r with baseOuter := c } ∨ r.setBase d c = { r with baseInner := c } := by
  unfold Sect.setBase
  split
  · exact .inl rfl
  · exact .inr rfl

section
variable (d : Nat) (c : Option Counts) (r : Sect)

@[simp] theorem Sect.setBase_id : (r.setBase d c).id = r.id := by rcases r.setBase_cases d c with h | h <;> rw [h]
@[simp] theorem Sect.setBase_state : (r.setBase d c).state = r.state := by rcases r.setBase_cases d c with h | h <;> rw [h]
@[simp] theorem Sect.setBase_balance : (r.setBase d c).balance = r.balance := by rcases r.setBase_cases d c with h | h <;> rw [h]
@[simp] theorem Sect.setBase_tag : (r.setBase d c).tag = r.tag := by rcases r.setBase_cases d c with h | h <;> rw [h]
@[simp] theorem Sect.setBase_underlying : (r.setBase d c).underlying = r.underlying := by rcases r.setBase_cases d c with h | h <;> rw [h]

end

@[simp] theorem Sect.base_setBase (d : Nat) (c : Option Counts) (r : Sect) : (r.setBase d c).base d = c := by
  unfold Sect.setBase
  split <;> simp_all [Sect.base]

/-- The first candidate deadline of an approaching section becomes its deadline (R31, R35). -/
theorem Sect.candidate_first {c : Time} {r : Sect} (ha : r.approaching = true) (hh : r.held = false) (hd : r.deadline = none) :
    r.candidate c = { r with deadline := some c } := by
  simp [Sect.candidate, ha, hh, Sect.earlierDeadline, hd]

/-- A vacant section that an axle has entered at its far end is approaching, without a deadline so far (R51). -/
theorem Sect.Vacant.entered {r : Sect} (h : r.Vacant) (d : Nat) (c : Option Counts) :
    (r.enteredFar.setBase d c).approaching = true ∧ (r.enteredFar.setBase d c).held = false ∧ (r.enteredFar.setBase d c).deadline = none := by
  have ha : r.enteredFar.approaching = true := by simp [Sect.approaching, Sect.enteredFar, Sect.isApproach, h.approach]
  rcases r.enteredFar.setBase_cases d c with he | he <;> rw [he] <;> exact ⟨ha, h.held, h.deadline⟩

/-- The record on the crossing side of an outer DP at the first inward axle (R26, R31, R43, R50, R51). -/
theorem Sect.Vacant.crossingAxle {r : Sect} {u : DpUnit} {a : Axle} (h : r.Vacant) (ho : dpOuter u.id = true) (hid : r.id = crossingSide u.id)
    (hi : a.inward = true) (hstrikes : r.strikes = 0) (now : Time) (minSweep : Nat) (usable : Bool) (delay : Nat) :
    r.crossingAxle now minSweep usable u a delay
      = { r.enteredFar.setBase u.id (some u.counts) with strikes := 1, t0 := some a.coverMs, deadline := some (later a.coverMs delay) } := by
  have hown : r.ownAxle now minSweep usable u true = r.enteredFar.setBase u.id (some u.counts) := by
    simp only [Sect.ownAxle, if_true, hid, movesOf_outer_inward ho, h.applyMoves]
  have hm : r.measures true = true := by simp [Sect.measures, hstrikes]
  obtain ⟨happ, hheld, hdead⟩ := h.entered u.id (some u.counts)
  simp only [Sect.crossingAxle, hi, hown, hm, if_true, Sect.strikeAxle, hstrikes]
  exact Sect.candidate_first happ hheld hdead

/-- What the counting of an axle at an outer DP leaves of the section table and the phase: the change of its approach section (R43, R44). -/
theorem countAxle_outer {u v : DpUnit} {a : Axle} {s : State} (hv : u.counted a.inward = v) (ho : dpOuter v.id = true) :
    KeptBut [.dps, .latches, .conds, .notices, .line]
      (mapSect (crossingSide v.id) (fun r => r.crossingAxle s.clock.ms s.cfg.timing.minSweepAxles (sectUsable (putDp v s) r.id) v a
        (axleDelay v.distance (axleSpeed v.spacing a.delta a.noSpeed) s.cfg.timing.warningTime s.cfg.timing.maxDelay)) (putDp v s))
      (countAxle u a s) := by
  subst hv
  unfold countAxle
  extract_lets x s1 cross now tm sp measured s2 s3 s4 s5
  have h2 : s2 = s1 := by
    have hfar : (boundedBy x.id).filter (· ≠ cross) = [] := by rw [boundedBy_outer (d := x.id) ho]; simp [cross]
    simp only [s2, hfar, mapSects, List.foldl_nil]
  have h3 : s3 = mapSect cross (fun r => r.crossingAxle now tm.minSweepAxles (sectUsable s1 r.id) x a
      (axleDelay x.distance sp tm.warningTime tm.maxDelay)) s1 := by simp only [s3, h2]
  have h4 : KeptBut [.dps, .latches, .conds, .notices, .line] s3 s4 :=
    KeptBut.ite (fun _ => (noteSpeed_kept _ _ _ _).mono (by decide)) (fun _ => KeptBut.refl _ _)
  have h5 : KeptBut [.dps, .latches, .conds, .notices, .line] s4 s5 := (lateArrival_noted _ _ s4 (t := s5) rfl).1.mono (by decide)
  have h6 : KeptBut [.dps, .latches, .conds, .notices, .line] s5 (if s.join.state = .joined then request (.strike x.slot) s5 else s5) :=
    KeptBut.ite (fun _ => (request_kept_line (strike_kind_ne _) _).mono (by decide)) (fun _ => KeptBut.refl _ _)
  rw [h3] at h4
  exact (h4.trans h5).trans h6

/-- The approach section of an outer DP at the end of the event whose work has counted the first inward axle into it. -/
theorem sectAt_event_countAxle {dt : Nat} {s s1 : State} {f : State → Work} {u : DpUnit} {a : Axle} {r : Sect} (hp : s.powered = true)
    (hf : (f (advance dt s)).1 = countAxle u a s1) (h : r.Vacant) (ho : dpOuter u.id = true) (hat : sectAt s1 (crossingSide u.id) = some r)
    (hi : a.inward = true) (hstrikes : r.strikes = 0) (hshut : ReleaseShut s1) :
    sectAt (event dt s f) (crossingSide u.id) = some { r.enteredFar.setBase u.id (some (u.counted true).counts) with
      strikes := 1, t0 := some a.coverMs, deadline := some (later a.coverMs
        (axleDelay u.distance (axleSpeed u.spacing a.delta a.noSpeed) s1.cfg.timing.warningTime s1.cfg.timing.maxDelay)) } := by
  have hkept := countAxle_outer (s := s1) (by rw [hi]) (show dpOuter (u.counted true).id = true from ho)
  have hcross (now : Time) (minSweep : Nat) (usable : Bool) (delay : Nat) :=
    h.crossingAxle (u := u.counted true) (a := a) ho (sectAt_id hat) hi hstrikes now minSweep usable delay
  refine ((sectShut_stable _ _).event hp ⟨?_, ?_⟩).2
  · rw [hf]
    exact (ReleaseShut.mapSect (s := putDp (u.counted true) s1) hshut _ _).congr (hkept .phase (by decide))
  · rw [hf, sectAt_congr (hkept .sections (by decide))]
    exact sectAt_mapSect_whole (.inr h.clear) hat (hcross _ _ _ _) (Sect.setBase_id _ _ _)

/-- Settles O19: the edge ends a pass, and the axle of the pass is counted into its vacant approach section. -/
theorem inwardAxleSetsTheDeadline : Obligations.InwardAxleSetsTheDeadline := by
  intro dt slot p level th s u r hp hu hw hlast hf hth hc hlev hn hin ho hat hk hst hb hstr ht hd hh hrel
  obtain ⟨f, hex, hfa⟩ := exec_acceptedEdge_one (dt := dt) hu hf hth (by rw [hc]; simpa using hlev) hn
  rw [if_pos hw, takeMove_last hlast hc] at hfa
  have hv : r.Vacant := ⟨hk, hst, hb, ht, hd, hh⟩
  have hid : (u.passed p).id = u.id := (u.passed_fields p).2.1
  have hinw : (passAxle (advance dt s) u p).inward = true := (passAxle_inward _ _ _).trans (decide_eq_true hin)
  have hq := sectAt_event_countAxle (s1 := putDp (u.passed p) (advance dt s)) hp (congrArg Prod.fst hfa) hv (by rw [hid]; exact ho)
    (by rw [hid]; exact hat) hinw hstr fun _ => hrel
  rw [hid] at hq
  refine ⟨_, _, hex, hq, Sect.setBase_state _ _ _, Sect.setBase_tag _ _ _, Sect.setBase_balance _ _ _, rfl, ?_, ?_⟩ <;> cases p <;> rfl

end Sys2Proof.Machine
end

section
/-! ## A STRIKE taken (R35, R36, R41, R45, R47, R48, R51) -/

namespace Sys2Proof.Machine

/-! ### The counts of one outer DP -/

theorem Moves.none_add (m : Moves) : Moves.none.add m = m := by
  simp [Moves.add, Moves.none]

theorem Sect.count_none (minSweep : Nat) (usable : Bool) (r : Sect) : r.count minSweep usable Moves.none = r := by
  unfold Sect.count
  split
  · rfl
  · exact if_pos rfl

section
variable {now : Time} {minSweep : Nat} {usable : Bool} {d : Nat} {c : Counts} {r : Sect}

/-! A frame's counts of one DP at a record, by how they stand against its baseline (R45 to R48). -/

theorem Sect.applyFrame_newEpoch (h : judgeCounts (r.base d) c = .newEpoch) :
    r.applyFrame now minSweep usable [{ dp := d, counts := c }] = r.forget.setBase d (some c) := by
  simp [Sect.applyFrame, h]

theorem Sect.applyFrame_implausible (h : judgeCounts (r.base d) c = .implausible) :
    r.applyFrame now minSweep usable [{ dp := d, counts := c }] = r.disturb.setBase d (some c) := by
  simp [Sect.applyFrame, frameMoves, h, Sect.count_none]

theorem Sect.applyFrame_axles {i o : Nat} (h : judgeCounts (r.base d) c = .axles i o) :
    r.applyFrame now minSweep usable [{ dp := d, counts := c }] = (r.applyMoves now minSweep usable (movesOf d r.id i o)).setBase d (some c) := by
  simp [Sect.applyFrame, frameMoves, h, Moves.none_add]

end

theorem Sect.forget_id (r : Sect) : r.forget.id = r.id := by unfold Sect.forget; split <;> rfl

theorem Sect.forget_balance (r : Sect) : r.forget.balance = r.balance := by unfold Sect.forget; split <;> rfl

theorem Sect.forget_state {r : Sect} (h : r.state ≠ .disturbed) : r.forget.state = .unknown := by rw [Sect.forget, if_neg h]

theorem Sect.forget_underlying {r : Sect} (h : r.state ≠ .disturbed) : r.forget.underlying = none := by rw [Sect.forget, if_neg h]

theorem Sect.disturb_balance (r : Sect) : r.disturb.balance = r.balance := by unfold Sect.disturb; split <;> rfl

/-- A section that is not OCCUPIED takes no candidate and no deadline at once (R35, R36). -/
theorem Sect.approaching_of_state {r : Sect} (h : r.state ≠ .occupied) : r.approaching = false := by
  simp [Sect.approaching, h]

/-- What a STRIKE of one outer DP makes of its approach section's record (R35, R36, R45): the counts, the candidate, the deadline of R36. -/
def Sect.struck (now : Time) (minSweep : Nat) (usable : Bool) (rep : DpCounts) (cand : Option Time) (r : Sect) : Sect :=
  let r1 := r.applyFrame now minSweep usable [rep]
  Sect.closeAtOnce now r (cand.isSome && r1.approaching && !r1.held) (cand.elim r1 r1.candidate)

/-- A record that the counts leave other than OCCUPIED gets no deadline from the STRIKE. -/
theorem Sect.struck_still {now : Time} {minSweep : Nat} {usable : Bool} {rep : DpCounts} {r q : Sect} (cand : Option Time)
    (hq : r.applyFrame now minSweep usable [rep] = q) (hs : q.state ≠ .occupied) : r.struck now minSweep usable rep cand = q := by
  have ha := Sect.approaching_of_state hs
  have hc : cand.elim q q.candidate = q := by cases cand <;> simp [Sect.candidate, ha]
  simp [Sect.struck, hq, hc, Sect.closeAtOnce, ha]

/-- One axle inward at the outer DP of a vacant section, with a delay known (R35, R45, R51): the candidate is its deadline. -/
theorem Sect.Vacant.struck {now : Time} {minSweep : Nat} {usable : Bool} {d : Nat} {c : Counts} {r : Sect} (h : r.Vacant) (ho : dpOuter d = true)
    (hid : r.id = crossingSide d) (hj : judgeCounts (r.base d) c = .axles 1 0) (x : Time) :
    r.struck now minSweep usable { dp := d, counts := c } (some x) = { r.enteredFar.setBase d (some c) with deadline := some x } := by
  obtain ⟨happ, hheld, hdead⟩ := h.entered d (some c)
  have hframe : r.applyFrame now minSweep usable [{ dp := d, counts := c }] = r.enteredFar.setBase d (some c) := by
    rw [Sect.applyFrame_axles hj, hid, movesOf_outer_inward ho, h.applyMoves]
  simp [Sect.struck, hframe, Sect.candidate_first happ hheld hdead, Sect.closeAtOnce, happ, hheld]

/-- An outer DP of the table bounds one record of it. -/
theorem sectionsOfDps_outer {s : State} {d : Nat} {r : Sect} (ho : dpOuter d = true) (hn : (s.sections.map (·.id)).Nodup)
    (hat : sectAt s (crossingSide d) = some r) : sectionsOfDps s [d] = [crossingSide d] := by
  have hm : crossingSide d ∈ s.sections.map (·.id) := sectAt_id hat ▸ List.mem_map_of_mem (sectAt_mem hat)
  have hf : (fun i => [d].any fun d => (boundedBy d).contains i) = fun i => i == crossingSide d := by
    funext i
    simp only [List.any_cons, List.any_nil, Bool.or_false, boundedBy_outer ho, List.contains_cons, List.contains_nil]
  rw [sectionsOfDps, hf, List.filter_beq, List.count_eq_one_of_mem hn hm]
  rfl

/-- The counts of one outer DP change its approach section's record alone. -/
theorem peerCounts_outer {s : State} {d : Nat} {c : Counts} {r : Sect} (ho : dpOuter d = true) (hn : (s.sections.map (·.id)).Nodup)
    (hat : sectAt s (crossingSide d) = some r) (cand : Option Time) :
    peerCounts [{ dp := d, counts := c }] none (cand.map fun x => (crossingSide d, x)) s
      = mapSect (crossingSide d) (Sect.struck s.clock.ms s.cfg.timing.minSweepAxles (sectUsable s (crossingSide d) && !declaredLockout s)
          { dp := d, counts := c } cand) s := by
  have hreps : ([{ dp := d, counts := c }] : List DpCounts).filter (fun e => (boundedBy e.dp).contains (crossingSide d)) = [{ dp := d, counts := c }] := by
    simp [boundedBy_outer ho]
  simp only [peerCounts, List.map_cons, List.map_nil, sectionsOfDps_outer ho hn hat, List.foldl_cons, List.foldl_nil, hreps]
  cases cand
  · rfl
  · simp only [Option.map_some, if_true]
    rfl

/-! ### The STRIKE at its station -/

theorem WatchedKept.ite {s t u : State} {c : Prop} [Decidable c] (h1 : WatchedKept s t) (h2 : WatchedKept s u) : WatchedKept s (if c then t else u) := by
  split
  · exact h1
  · exact h2

/-- The conclusion of an event keeps the watched parts as `WatchedKept` says, also where the event has filled the first-fault record. -/
theorem conclude_watched (s0 s1 : State) : WatchedKept s1 (conclude s0 s1) := by
  unfold conclude
  extract_lets s2 s3 s4 s5
  have h2 : WatchedKept s1 s2 :=
    ((chooseLeader_watched s1).trans ((completeFirstFault_kept s0 _).watched (by decide))).trans (judgeDcis_watched _)
  have h3 : WatchedKept s1 s3 := h2.trans (WatchedKept.ite (askStatus_watched s2) (WatchedKept.refl s2))
  have h4 : WatchedKept s1 s4 := h3.trans (followQuiet_watched s3)
  have h5 : WatchedKept s1 s5 := h4.trans (WatchedKept.ite (contendNow_watched s4) (WatchedKept.refl s4))
  exact h5.trans (transmit_watched s5)

/-- The frames that wait in the hand-over after an event are those that its work has left there (R77). -/
theorem event_accepted {dt : Nat} {s : State} {f : State → Work} (hp : s.powered = true) :
    (event dt s f).line.accepted = (f (advance dt s)).1.line.accepted := by
  rw [event_eq hp, (conclude_watched _ _).line_accepted, drain_kept _ _ _ .line (by decide)]

theorem peerAt_advance (dt n : Nat) (s : State) : peerAt (advance dt s) n = (peerAt s n).map (Peer.grow ((s.clock.frac + dt) / 1000)) := by
  have hp : (fun p : Peer => p.station == n) ∘ Peer.grow ((s.clock.frac + dt) / 1000) = fun p => p.station == n := rfl
  simp only [peerAt, advance, List.find?_map, hp]

/-- The frame at the front of the hand-over is the one taken. -/
theorem dropAccepted_eq {s : State} {a : Accepted} {rest : List Accepted} (h : s.line.accepted = a :: rest) :
    dropAccepted s = { s with line := { s.line with accepted := rest } } := by
  rw [dropAccepted, h]
  rfl

theorem exec_strikeTaken {dt : Nat} {s : State} {a : Accepted} {rest : List Accepted} {b : StrikeBody} (h : s.line.accepted = a :: rest)
    (hb : a.body = .strike b) :
    ∃ f, exec (.strikeTaken dt) s = .next (event dt s f) ∧ f (advance dt s) = (takeStrike a b (dropAccepted (advance dt s)), []) := by
  refine ⟨_, rfl, ?_⟩
  simp only [plain_apply, advance_line, h, hb]

/-- A STRIKE of a peer that is not LIVE, or about a DP of another owner, is not taken (R35). -/
theorem takeStrike_refused {dt : Nat} {s : State} {a : Accepted} {b : StrikeBody}
    (h : (∀ p : Peer, peerAt s a.source = some p → p.state ≠ .live) ∨ ∀ e : DpEntry, s.cfg.dps[b.dp]? = some e → e.owner ≠ a.source) :
    takeStrike a b (dropAccepted (advance dt s)) = dropAccepted (advance dt s) := by
  refine if_neg fun ⟨hlive, hown⟩ => ?_
  rcases h with h | h
  · have hlive' : ((peerAt s a.source).map (Peer.grow ((s.clock.frac + dt) / 1000))).any (fun p => p.state == .live) = true :=
      peerAt_advance dt a.source s ▸ hlive
    rw [Option.any_map, Option.any_eq_true] at hlive'
    obtain ⟨p, hp, hl⟩ := hlive'
    exact h p hp (beq_iff_eq.1 hl)
  · obtain ⟨e, he, heo⟩ := Option.map_eq_some_iff.1 hown
    exact h e he heo

/-- The counts of a STRIKE. -/
def StrikeBody.counts (b : StrikeBody) : Counts := { inn := b.inn, out := b.out, epoch := b.epoch }

/-- The station with the frame taken off the hand-over and the STRIKE's counts and speed in the DP view (R41). -/
def strikeViewed (dt : Nat) (b : StrikeBody) (s : State) : State :=
  mapView b.dp (fun v => { v with latest := some b.counts, lastSpeed := b.speed }) (dropAccepted (advance dt s))

/-- The change that a STRIKE makes of the record of its section, in a state. -/
def strikeChange (a : Accepted) (b : StrikeBody) (s : State) : Sect → Sect :=
  Sect.struck s.clock.ms s.cfg.timing.minSweepAxles (sectUsable s (crossingSide b.dp) && !declaredLockout s) { dp := b.dp, counts := b.counts }
    (b.delay.map (receivedDeadline a.endMs s.cfg.timing.transit))

section
variable {dt : Nat} {s : State} {a : Accepted} {rest : List Accepted} {b : StrikeBody} {p : Peer} {e : DpEntry} {r : Sect}

/-- A STRIKE about an outer DP of a LIVE peer is the change of its approach section's record (R35, R41, R45). -/
theorem exec_strikeTaken_outer (hacc : s.line.accepted = a :: rest) (hb : a.body = .strike b) (hp : peerAt s a.source = some p) (hl : p.state = .live)
    (he : s.cfg.dps[b.dp]? = some e) (hown : e.owner = a.source) (ho : dpOuter b.dp = true) (hn : (s.sections.map (·.id)).Nodup)
    (hat : sectAt s (crossingSide b.dp) = some r) :
    ∃ f, exec (.strikeTaken dt) s = .next (event dt s f)
      ∧ f (advance dt s) = (mapSect (crossingSide b.dp) (strikeChange a b (strikeViewed dt b s)) (strikeViewed dt b s), []) := by
  obtain ⟨f, hex, hf⟩ := exec_strikeTaken (dt := dt) hacc hb
  have hlive : (peerAt (dropAccepted (advance dt s)) a.source).any (fun p => p.state == .live) = true := by
    show (peerAt (advance dt s) a.source).any _ = true
    rw [peerAt_advance, hp]
    exact beq_iff_eq.2 hl
  have howner : ownerOf (dropAccepted (advance dt s)) b.dp = some a.source := by
    show (s.cfg.dps[b.dp]?).map _ = _
    rw [he, ← hown]
    rfl
  refine ⟨f, hex, hf.trans (congrArg (·, []) ((if_pos ⟨hlive, howner⟩).trans ?_))⟩
  have hcand : (b.delay.map fun d => (crossingSide b.dp, receivedDeadline a.endMs s.cfg.timing.transit d))
      = (b.delay.map (receivedDeadline a.endMs s.cfg.timing.transit)).map fun x => (crossingSide b.dp, x) := by rw [Option.map_map]; rfl
  exact (congrArg (fun x => peerCounts [{ dp := b.dp, counts := b.counts }] none x (strikeViewed dt b s)) hcand).trans
    (peerCounts_outer (s := strikeViewed dt b s) ho hn hat _)

variable {f : State → Work} {q : Sect}

/-- A STRIKE that moves its section into UNKNOWN or DISTURBED outside declared lockout: at the end of the event the record has every property of the
changed one that a release leaves, and the condition of its state stands (R42, R47, R48). -/
theorem event_strike_moves {k : CondKind} (hp : s.powered = true)
    (hf : (f (advance dt s)).1 = mapSect (crossingSide b.dp) (strikeChange a b (strikeViewed dt b s)) (strikeViewed dt b s))
    (hat : sectAt s (crossingSide b.dp) = some r) (hd : declaredLockout s = false) (hl : s.conds.length ≤ 20)
    (hq : ∀ now minSweep usable, r.applyFrame now minSweep usable [{ dp := b.dp, counts := b.counts }] = q) (hid : q.id = r.id)
    (hk : (q.state = .unknown ∧ k = .sectionUnknown) ∨ (q.state = .disturbed ∧ k = .sectionDisturbed)) :
    (∃ x, sectAt (event dt s f) (crossingSide b.dp) = some x ∧ x.state = q.state ∧ x.underlying = q.underlying ∧ x.balance = q.balance
        ∧ x.base b.dp = q.base b.dp)
      ∧ (r.state ≠ q.state → hasCond (event dt s f) (condOf k (crossingSide b.dp) 0) = true) := by
  have hs : q.state ≠ .occupied := by rcases hk with ⟨h, -⟩ | ⟨h, -⟩ <;> rw [h] <;> decide
  have hchange : strikeChange a b (strikeViewed dt b s) r = q := Sect.struck_still _ (hq _ _ _) hs
  have hk' : k = .sectionUnknown ∨ k = .sectionDisturbed := hk.imp And.right And.right
  have hl' : (strikeViewed dt b s).conds.length < 31 := lt_of_le_of_lt hl (by decide)
  constructor
  · refine (sectHas_stable (P := fun x => x.state = q.state ∧ x.underlying = q.underlying ∧ x.balance = q.balance ∧ x.base b.dp = q.base b.dp)
      fun _ h => h).event hp ?_
    rw [hf]
    exact ⟨q, sectAt_mapSect_whole (.inl hd) hat hchange hid, rfl, rfl, rfl, rfl⟩
  · intro hne
    refine (sectionCond_stable hk' _).event hp ?_
    rw [hf]
    exact hasCond_mapSect_entered (s := strikeViewed dt b s) hd (hchange ▸ hid) hat (hchange ▸ hne) hl' (hchange ▸ hk)

/-- A STRIKE of the first inward axle into a vacant section: at the end of the event the section is OCCUPIED from its far end, with the STRIKE's deadline
(R35, R45, R51). -/
theorem event_strike_enters {d : Nat} (hp : s.powered = true)
    (hf : (f (advance dt s)).1 = mapSect (crossingSide b.dp) (strikeChange a b (strikeViewed dt b s)) (strikeViewed dt b s))
    (hat : sectAt s (crossingSide b.dp) = some r) (hv : r.Vacant) (ho : dpOuter b.dp = true) (hj : judgeCounts (r.base b.dp) b.counts = .axles 1 0)
    (hd : b.delay = some d) (hrel : s.phase.releaseExpired = false) :
    sectAt (event dt s f) (crossingSide b.dp) = some { r.enteredFar.setBase b.dp (some b.counts) with
      deadline := some (receivedDeadline a.endMs s.cfg.timing.transit d) } := by
  have hchange : strikeChange a b (strikeViewed dt b s) r = { r.enteredFar.setBase b.dp (some b.counts) with
      deadline := some (receivedDeadline a.endMs s.cfg.timing.transit d) } := by
    rw [strikeChange, hd]
    exact hv.struck ho (sectAt_id hat) hj _
  refine ((sectShut_stable _ _).event hp ?_).2
  rw [hf]
  exact ⟨ReleaseShut.mapSect (s := strikeViewed dt b s) (fun _ => hrel) _ _,
    sectAt_mapSect_whole (s := strikeViewed dt b s) (.inr hv.clear) hat hchange (Sect.setBase_id _ _ _)⟩

end

/-- Settles O45: a STRIKE taken is the change of one record, split by how its counts stand against the baseline; one refused changes nothing. -/
theorem strikeOccupiesTheApproach : Obligations.StrikeOccupiesTheApproach := by
  intro dt s a rest b hp hacc hb
  refine ⟨?_, ?_, ?_⟩
  · intro p e r c d hpeer hlive he hown ho hn hat hk hst hbal htag hdead hheld hbase hep hinn hout hdel hrel
    obtain ⟨f, hex, hf⟩ := exec_strikeTaken_outer (dt := dt) hacc hb hpeer hlive he hown ho hn hat
    have hj : judgeCounts (r.base b.dp) b.counts = .axles 1 0 := by
      simp [judgeCounts, hbase, StrikeBody.counts, hep, hinn, hout]
    have hsec := event_strike_enters hp (congrArg Prod.fst hf) hat ⟨hk, hst, hbal, htag, hdead, hheld⟩ ho hj hdel hrel
    refine ⟨_, _, hex, ?_, hsec, Sect.setBase_state _ _ _, Sect.setBase_tag _ _ _, Sect.setBase_balance _ _ _, Sect.base_setBase _ _ _, rfl, ?_⟩
    · rw [event_accepted hp, hf, mapSect_kept _ _ _ .line (by decide)]
      show s.line.accepted.drop 1 = rest
      rw [hacc, List.drop_one, List.tail_cons]
    · rw [event_kept_work hp .dps (by decide), hf, mapSect_kept _ _ _ .dps (by decide)]
      rfl
  · intro p e r c hpeer hlive he hown ho hn hat hnd hbase hl hdecl
    obtain ⟨f, hex, hf⟩ := exec_strikeTaken_outer (dt := dt) hacc hb hpeer hlive he hown ho hn hat
    constructor
    · intro hep
      have hj : judgeCounts (r.base b.dp) b.counts = .newEpoch := by simp [judgeCounts, hbase, StrikeBody.counts, hep]
      have hs : (r.forget.setBase b.dp (some b.counts)).state = .unknown := (Sect.setBase_state _ _ _).trans (Sect.forget_state hnd)
      obtain ⟨⟨x, hx, hxs, hxu, hxb, hxc⟩, hcond⟩ := event_strike_moves hp (congrArg Prod.fst hf) hat hdecl hl
        (fun _ _ _ => Sect.applyFrame_newEpoch hj) ((Sect.setBase_id _ _ _).trans r.forget_id) (.inl ⟨hs, rfl⟩)
      exact ⟨_, x, hex, hx, hxs.trans hs, hxu.trans ((Sect.setBase_underlying _ _ _).trans (Sect.forget_underlying hnd)),
        hxb.trans ((Sect.setBase_balance _ _ _).trans r.forget_balance), hxc.trans (Sect.base_setBase _ _ _), fun hne => hcond (by rw [hs]; exact hne)⟩
    · intro hep hfar
      have hj : judgeCounts (r.base b.dp) b.counts = .implausible := by
        rw [hbase]
        exact (if_neg (not_not.2 hep)).trans (if_pos hfar)
      have hs : (r.disturb.setBase b.dp (some b.counts)).state = .disturbed := (Sect.setBase_state _ _ _).trans r.disturb_state
      obtain ⟨⟨x, hx, hxs, -, hxb, hxc⟩, hcond⟩ := event_strike_moves hp (congrArg Prod.fst hf) hat hdecl hl
        (fun _ _ _ => Sect.applyFrame_implausible hj) ((Sect.setBase_id _ _ _).trans r.disturb_id) (.inr ⟨hs, rfl⟩)
      exact ⟨_, x, hex, hx, hxs.trans hs, hxb.trans ((Sect.setBase_balance _ _ _).trans r.disturb_balance), hxc.trans (Sect.base_setBase _ _ _),
        hcond (by rw [hs]; exact hnd)⟩
  · intro h
    obtain ⟨f, hex, hf⟩ := exec_strikeTaken (dt := dt) hacc hb
    rw [takeStrike_refused h, dropAccepted_eq (s := advance dt s) hacc] at hf
    exact ⟨_, hex, event_concluded hp hf rfl rfl rfl⟩

end Sys2Proof.Machine
end

section
/-! ## A reached deadline closes the crossing (R33, R106, R113, R114) -/

namespace Sys2Proof.Machine

/-! ### A move of the phase (R105, R137) -/

/-- The station with its phase unit moved, before anything follows the move. -/
def entered (p : Phase) (s : State) : State := countChange true { s with phase := s.phase.enter s.clock.ms (islandsClear s) p }

theorem entered_phase (p : Phase) (s : State) : (entered p s).phase = s.phase.enter s.clock.ms (islandsClear s) p := rfl

theorem entered_kept (p : Phase) (s : State) : KeptBut [.phase, .conds] s (entered p s) := by
  intro q hq; cases q <;> first | rfl | exact absurd (by decide) hq

theorem movePhase_eq {p : Phase} (hp : p ≠ .failed) (s : State) :
    movePhase p s = (judgeDcis (seqRequests (barrierSettle (entered p s)).1).1,
      (barrierSettle (entered p s)).2 ++ (seqRequests (barrierSettle (entered p s)).1).2) := by
  simp only [movePhase, if_neg hp, Work.andThen, judgePassing, List.append_nil]
  rfl

/-- Of the phase unit the requests at an entry change the deferred list alone (R137). -/
theorem seqRequests_phaseUnit (s : State) : ∃ l, (seqRequests s).1.phase = { s.phase with deferred := l } := by
  have hstart (w : ListName) (t : State) : (seqStart w t).1.phase = t.phase := seqStart_kept w t .phase (by decide)
  have hstop (t : State) : (seqStop t).1.phase = t.phase := seqStop_kept t .phase (by decide)
  unfold seqRequests
  repeat' split
  all_goals first
    | exact ⟨_, rfl⟩
    | exact ⟨_, hstart _ _⟩
    | exact ⟨_, (hstart _ _).trans (hstop _)⟩

/-- A move enters its phase, with the phase unit's own timers and marks (R105, R119). -/
theorem movePhase_phaseUnit {p : Phase} (hp : p ≠ .failed) (s : State) :
    ∃ l, (movePhase p s).1.phase = { s.phase.enter s.clock.ms (islandsClear s) p with deferred := l } := by
  rw [movePhase_eq hp]
  obtain ⟨l, hl⟩ := seqRequests_phaseUnit (barrierSettle (entered p s)).1
  rw [barrierSettle_kept _ .phase (by decide)] at hl
  exact ⟨l, (judgeDcis_kept _ .phase (by decide)).trans hl⟩

/-- An entry into a phase that wants no list empties the deferred list of a post (R137). -/
theorem seqRequests_unwanted {s : State} (h : wantedList s.phase.phase = none) : seqRequests s = (if isPost s then defer none s else s, []) := by
  simp only [seqRequests, h]
  split <;> rfl

theorem movePhase_sections {p : Phase} (hp : p ≠ .failed) (s : State) : (movePhase p s).1.sections = s.sections := by
  rw [movePhase_eq hp, judgeDcis_kept _ .sections (by decide), seqRequests_kept _ .sections (by decide), barrierSettle_kept _ .sections (by decide),
    entered_kept p s .sections (by decide)]

/-! ### The transition rules under closing demand without failure demand (R113, R114) -/

section
variable {s : State} (hf : failureDemand s = false) (hc : closingDemand s = true)
include hf hc

theorem phaseAct_open (h : s.phase.phase = .opened ∨ s.phase.phase = .opening) : phaseAct s = .move .closing := by
  rcases h with h | h <;> simp [phaseAct, h, hf, hc]

theorem phaseAct_closing (h : s.phase.phase = .closing) : phaseAct s = if allDown s then .move .closed else .stay := by
  simp [phaseAct, h, hf, hc]

theorem phaseAct_closed (h : s.phase.phase = .closed) : phaseAct s = .stay := by
  simp [phaseAct, h, hf, hc]

end

/-! ### An evaluation that makes no release (R119, R120) -/

/-- Of the phase unit the upkeep of the release timer changes the release's marks alone, and sets none of expiry. -/
theorem releaseUpkeep_phaseUnit (s : State) : ∃ r e l, (releaseUpkeep s).phase = { s.phase with releaseStart := r, releaseExpired := e, standing := l }
    ∧ (s.phase.releaseExpired = false → e = false) := by
  unfold releaseUpkeep
  repeat' split
  · exact ⟨_, _, _, rfl, id⟩
  · exact ⟨_, _, _, rfl, id⟩
  · exact ⟨_, _, _, rfl, id⟩
  · exact ⟨_, _, _, rfl, fun _ => rfl⟩

theorem releaseUpkeep_open {s : State} (h : s.phase.phase ≠ .closed) : releaseUpkeep s = s := if_pos h

section
variable {s : State} {n : Nat} (h : ReleaseShut s)
include h

theorem releaseUpkeep_shut : ReleaseShut (releaseUpkeep s) := by
  obtain ⟨r, e, l, hp, he⟩ := releaseUpkeep_phaseUnit s
  rw [ReleaseShut, hp]
  exact fun hc => he (h hc)

theorem releaseTested_shut : releaseTested s = false := by
  by_cases hc : s.phase.phase = .closed
  · simp [releaseTested, h hc]
  · simp [releaseTested, hc]

theorem noteStanding_shut : noteStanding s = s := if_neg (by rw [releaseTested_shut h]; simp)

theorem evaluate_stays (ha : phaseAct (releaseUpkeep s) = .stay) : evaluate (n + 1) s = (releaseUpkeep s, []) := by
  have hs := releaseUpkeep_shut h
  simp [evaluate, releaseHolds, releaseTested_shut hs, noteStanding_shut hs, ha]

theorem evaluate_moves {p : Phase} (ha : phaseAct (releaseUpkeep s) = .move p) :
    evaluate (n + 1) s = (movePhase p (releaseUpkeep s)).andThen (evaluate n) := by
  have hs := releaseUpkeep_shut h
  simp [evaluate, releaseHolds, releaseTested_shut hs, noteStanding_shut hs, ha]

end

/-! ### A crossing that is closing, through the handling of signals -/

/-- A state that the handling of signals has reached from another, CLOSING or CLOSED, with the section table as it was and no release possible. -/
structure Closes (s t : State) : Prop where
  kept : KeptBut movedParts s t
  sections : t.sections = s.sections
  phase : t.phase.phase = .closing ∨ t.phase.phase = .closed
  shut : ReleaseShut t

/-- The demands that hold a crossing closing: closing demand and no failure demand (R107, R108). -/
structure ClosingOnly (s : State) : Prop where
  failure : failureDemand s = false
  closing : closingDemand s = true

theorem ClosingOnly.congr {s t : State} (hk : KeptBut movedParts s t) (hs : t.sections = s.sections) (h : ClosingOnly s) : ClosingOnly t := by
  have hj : t.join = s.join := hk .join (by decide)
  have hp : t.peers = s.peers := hk .peers (by decide)
  have hc : t.clock = s.clock := hk .clock (by decide)
  exact ⟨by rw [← h.failure, failureDemand, failureDemand, failureCauses, failureCauses, hj, hp, hs],
    by rw [← h.closing, closingDemand, closingDemand, hs, hc]⟩

namespace Closes

variable {s t u : State}

theorem closingOnly (h : Closes s t) (hd : ClosingOnly s) : ClosingOnly t := hd.congr h.kept h.sections

/-- A move to CLOSING or CLOSED. -/
theorem of_movePhase {p : Phase} (hk : KeptBut movedParts s t) (hs : t.sections = s.sections) (hp : p = .closing ∨ p = .closed) :
    Closes s (movePhase p t).1 := by
  have hne : p ≠ .failed := by rcases hp with rfl | rfl <;> decide
  obtain ⟨l, hl⟩ := movePhase_phaseUnit hne t
  exact ⟨hk.trans (movePhase_kept p t), (movePhase_sections hne t).trans hs, by rw [hl]; exact hp,
    by rw [ReleaseShut, hl]; exact fun _ => rfl⟩

/-- A change of parts other than the phase unit and the section table. -/
theorem of_kept {l : List Part} (h : Closes s t) (hk : KeptBut l t u) (hl : l ⊆ movedParts) (hp : Part.phase ∉ l) (hs : Part.sections ∉ l) :
    Closes s u := by
  have hph : u.phase = t.phase := hk .phase hp
  exact ⟨h.kept.trans (hk.mono hl), (hk .sections hs).trans h.sections, by rw [hph]; exact h.phase, h.shut.congr hph⟩

/-- A change of the phase unit that leaves the phase and the release mark. -/
theorem putPhase {v : PhaseUnit} (h : Closes s t) (hp : v.phase = t.phase.phase) (hr : v.releaseExpired = t.phase.releaseExpired) :
    Closes s { t with phase := v } :=
  ⟨h.kept.trans (putPhase_kept v t), h.sections, by show v.phase = .closing ∨ v.phase = .closed; rw [hp]; exact h.phase,
    fun hc => hr.trans (h.shut (hp.symm.trans hc))⟩

theorem releaseUpkeep (h : Closes s t) : Closes s (releaseUpkeep t) := by
  have hk := releaseUpkeep_kept t
  obtain ⟨r, e, l, hp, -⟩ := releaseUpkeep_phaseUnit t
  exact ⟨h.kept.trans (hk.mono (by decide)), (hk .sections (by decide)).trans h.sections, by rw [hp]; exact h.phase, releaseUpkeep_shut h.shut⟩

theorem evaluate (hd : ClosingOnly s) {n : Nat} (h : Closes s t) : Closes s (evaluate n t).1 := by
  induction n generalizing t with
  | zero => exact h
  | succ n ih =>
    have hu := h.releaseUpkeep
    obtain ⟨hf, hc⟩ := hu.closingOnly hd
    rcases hu.phase with hp | hp
    · by_cases hdown : allDown (Machine.releaseUpkeep t) = true
      · rw [evaluate_moves h.shut ((phaseAct_closing hf hc hp).trans (if_pos hdown))]
        exact ih (of_movePhase hu.kept hu.sections (.inr rfl))
      · rw [evaluate_stays h.shut ((phaseAct_closing hf hc hp).trans (if_neg hdown))]
        exact hu
    · rw [evaluate_stays h.shut (phaseAct_closed hf hc hp)]
      exact hu

theorem seqStart (h : Closes s t) (l : ListName) : Closes s (seqStart l t).1 := h.of_kept (seqStart_kept l t) (by decide) (by decide) (by decide)

theorem haltedEnd (hd : ClosingOnly s) (h : Closes s t) : Closes s (haltedEnd t).1 := by
  have he : Closes s (Machine.evaluate moveFuel { t with phase := { t.phase with haltPending := false } }).1 :=
    (h.putPhase (v := { t.phase with haltPending := false }) rfl rfl).evaluate hd
  simp only [Machine.haltedEnd, Work.andThen]
  split
  · exact he.seqStart _
  · exact he

theorem otherEnd (hd : ClosingOnly s) (h : Closes s t) : Closes s (otherEnd t).1 := by
  have he : Closes s (Machine.evaluate moveFuel t).1 := h.evaluate hd
  simp only [Machine.otherEnd, Work.andThen]
  repeat' split
  · exact he
  · exact (he.putPhase (v := { (Machine.evaluate moveFuel t).1.phase with deferred := none }) rfl rfl).seqStart _
  · exact he

theorem handleSig (hd : ClosingOnly s) (h : Closes s t) (sig : Sig) : Closes s (handleSig sig t).1 := by
  cases sig with
  | evaluate => exact h.evaluate hd
  | judge => exact h.of_kept (judgeStep_kept walkFuel t) (by decide) (by decide) (by decide)
  | enteredJoined =>
    have hp : t.phase.phase ≠ .starting := by rcases h.phase with hp | hp <;> rw [hp] <;> decide
    simp only [Machine.handleSig, if_neg hp]
    exact h
  | seqEnded how =>
    have he : Closes s (if t.phase.haltPending then Machine.haltedEnd t else Machine.otherEnd t).1 := by
      split
      · exact h.haltedEnd hd
      · exact h.otherEnd hd
    cases how
    · exact h.otherEnd hd
    · exact he
    · exact h.otherEnd hd
    · exact he

theorem drain (hd : ClosingOnly s) {fuel : Nat} {sigs : List Sig} (h : Closes s t) : Closes s (drain fuel sigs t) := by
  induction fuel generalizing sigs t with
  | zero => exact h
  | succ n ih =>
    cases sigs with
    | nil => exact h
    | cons sig rest => exact ih (h.handleSig hd sig)

end Closes

/-! ### The barrier drive settled (R153, R154, R157) -/

theorem barrierServed_congr {s t : State} (hcfg : t.cfg = s.cfg) (hj : t.join = s.join) : barrierServed t = barrierServed s := by
  simp only [barrierServed, isPost, ownRoles, hcfg, hj]

/-- The drive and the barrier state stand as they are found: settling them again changes nothing. -/
def BarrierSettled (s : State) : Prop :=
  barrierServed s = true → s.barrier.AtRest s.clock.ms s.phase.phase ∧ s.barrier.stateNow = s.barrier.state

namespace BarrierSettled

/-- Of the phase the drive reads whether it is OPENING (R153). -/
theorem congr {s t : State} (hc : t.clock = s.clock) (hcfg : t.cfg = s.cfg) (hj : t.join = s.join) (hb : t.barrier = s.barrier)
    (hp : t.phase.phase = .opening ↔ s.phase.phase = .opening) (h : BarrierSettled s) : BarrierSettled t := by
  have hwants : s.barrier.wantsRaise t.phase.phase = s.barrier.wantsRaise s.phase.phase := by
    simp only [BarrierUnit.wantsRaise, Bool.beq_eq_decide_eq, hp]
  unfold BarrierSettled BarrierUnit.AtRest
  rw [barrierServed_congr hcfg hj, hc, hb, hwants]
  exact h

/-- A change of parts that the drive does not read. -/
theorem of_kept {l : List Part} {s t : State} (hk : KeptBut l s t) (hl : ∀ p ∈ [Part.clock, .cfg, .join, .barrier, .phase], p ∉ l)
    (h : BarrierSettled s) : BarrierSettled t := by
  have hp : t.phase = s.phase := hk .phase (hl _ (by decide))
  exact congr (hk .clock (hl _ (by decide))) (hk .cfg (hl _ (by decide))) (hk .join (hl _ (by decide))) (hk .barrier (hl _ (by decide))) (by rw [hp]) h

/-- A drive that has been settled is settled. -/
theorem of_settle (s : State) : BarrierSettled (barrierSettle s).1 := by
  intro hserved
  have hk := barrierSettle_kept s
  have hc : (barrierSettle s).1.clock = s.clock := hk .clock (by decide)
  have hp : (barrierSettle s).1.phase = s.phase := hk .phase (by decide)
  have hs : barrierServed s = true := (barrierServed_congr (hk .cfg (by decide)) (hk .join (by decide))).symm.trans hserved
  rw [hc, hp, barrierSettle_barrier hs]
  exact ⟨BarrierUnit.findDrive_atRest s.clock.ms s.phase.phase s.barrier, rfl⟩

theorem settle {s : State} (h : BarrierSettled s) : barrierSettle s = (s, []) := by
  unfold barrierSettle
  split
  · obtain ⟨hrest, hnow⟩ := h ‹_›
    simp only [hrest.findDrive_eq, hnow, if_true]
  · rfl

theorem handCommand (c : BarrierCmd) (s : State) : BarrierSettled (handCommand c s).1 :=
  of_kept (countChange_kept _ _) (by decide) (of_settle _)

variable {s : State} (h : BarrierSettled s)
include h

theorem handField (f : BarrierField) : BarrierSettled (handField f s).1 := by
  cases f
  · exact h
  · exact handCommand _ s
  · exact handCommand _ s
  · exact handCommand _ s

theorem putSeq (q : SeqUnit) : BarrierSettled { s with seq := q } := h

theorem beginStep (i : Nat) (st : StepRec) : BarrierSettled (beginStep i st s).1 := by
  have h1 := ((h.putSeq { s.seq with step := some i, stepStart := s.clock.ms, waitStart := none }).of_kept
    (applyPattern_kept st.amber st.red _) (by decide)).handField st.barrier
  simp only [Machine.beginStep, Work.andThen]
  split
  · exact h1.putSeq _
  · exact h1

theorem endRun (how : EndHow) : BarrierSettled (endRun how s).1 := h.of_kept (endRun_kept how s) (by decide)

theorem judgeStep (fuel : Nat) : BarrierSettled (judgeStep fuel s).1 := by
  induction fuel generalizing s with
  | zero => exact h
  | succ n ih =>
    unfold Machine.judgeStep
    repeat' split
    · exact h
    · exact h.endRun .halted
    · exact h.endRun .done
    · exact h
    · exact ih (h.beginStep _ _)
    · exact h.putSeq _
    · exact h
    · exact h
    · exact h

theorem seqStart (l : ListName) : BarrierSettled (seqStart l s).1 := by
  unfold Machine.seqStart
  split
  · exact h
  · dsimp only
    split
    · exact h.putSeq _
    · exact ((h.putSeq _).beginStep _ _).judgeStep _

end BarrierSettled

/-! ### The sequencer idle (R129) -/

/-- The step in progress waits: its dwell has not run, or its wait condition does not hold and its wait has begun. -/
def SeqIdle (s : State) : Prop :=
  s.seq.active = true → ∀ st, currentStep s = some st → dwellRun s st = true → waitHolds s st.waitFor = false ∧ s.seq.waitStart.isNone = false

/-- A list that can be traced from a step holds the step, and from its next one can be traced too (R126). -/
theorem traceList_step {steps : List StepRec} {n : Nat} {seen : List Nat} {i : Nat} (h : (traceList steps (n + 1) seen i).isSome = true) :
    ∃ st, steps[i]? = some st ∧ ∀ j, st.next = some j → (steps[j]?).isSome = true ∧ (traceList steps n (seen ++ [i]) j).isSome = true := by
  have hstep (m : Nat) (l : List Nat) (j : Nat) (ht : (traceList steps m l j).isSome = true) : (steps[j]?).isSome = true := by
    cases m with
    | zero => simp [traceList] at ht
    | succ m =>
      simp only [traceList] at ht
      split at ht
      · simp at ht
      · split at ht
        · simp at ht
        · simp_all
  obtain ⟨st, hst⟩ := Option.isSome_iff_exists.1 (hstep _ _ _ h)
  refine ⟨st, hst, fun j hj => ?_⟩
  have ht : (traceList steps n (seen ++ [i]) j).isSome = true := by
    simp only [traceList, hst, hj] at h
    split at h
    · simp at h
    · exact h
  exact ⟨hstep _ _ _ ht, ht⟩

namespace SeqIdle

theorem of_inactive {s : State} (h : s.seq.active = false) : SeqIdle s := by
  intro ha
  rw [h] at ha
  exact absurd ha (by decide)

theorem judgeStep {s : State} (h : SeqIdle s) (fuel : Nat) : judgeStep fuel s = (s, []) := by
  cases fuel with
  | zero => rfl
  | succ n =>
    unfold Machine.judgeStep
    by_cases ha : s.seq.active = true
    · rw [if_pos ha]
      cases hc : currentStep s with
      | none => rfl
      | some st =>
        by_cases hd : dwellRun s st = true
        · obtain ⟨hw, hs⟩ := h ha st hc hd
          simp [hd, hw, hs]
        · simp [hd]
    · rw [if_neg ha]

theorem congr {s t : State} (hc : t.clock = s.clock) (hcfg : t.cfg = s.cfg) (hq : t.seq = s.seq) (hb : t.barrier = s.barrier)
    (hp : t.peers = s.peers) (h : SeqIdle s) : SeqIdle t := by
  have hpost : postBarrier t = postBarrier s := by
    funext n
    simp only [postBarrier, peerAt, hcfg, hb, hp]
  have hwait (f : WaitFor) : waitHolds t f = waitHolds s f := by
    cases f <;> simp only [waitHolds, allDown, allUp, posts, hpost, hcfg, hb]
  have hstep : currentStep t = currentStep s := by simp only [currentStep, hq, hcfg]
  have hdwell (st : StepRec) : dwellRun t st = dwellRun s st := by rw [dwellRun, dwellRun, sinceMs, sinceMs, hq, hc]
  unfold SeqIdle
  simp only [hwait, hstep, hdwell, hq]
  exact h

/-- A walk along a list that can be traced to its end leaves the sequencer idle (R126, R129). -/
theorem of_judgeStep {n : Nat} {seen : List Nat} {i fuel : Nat} {s : State} (ht : (traceList s.cfg.steps n seen i).isSome = true)
    (hi : s.seq.step = some i) (hn : n ≤ fuel) : SeqIdle (Machine.judgeStep fuel s).1 := by
  induction n generalizing seen i fuel s with
  | zero => exact absurd ht (by simp [traceList])
  | succ n ih =>
    obtain ⟨f, rfl⟩ : ∃ f, fuel = f + 1 := ⟨fuel - 1, by omega⟩
    obtain ⟨st, hst, hnext⟩ := traceList_step ht
    have hc : currentStep s = some st := by rw [currentStep, hi]; exact hst
    have hended (how : EndHow) : SeqIdle (endRun how s).1 := of_inactive (by rw [endRun_seq]; exact SeqUnit.ended_active how _)
    by_cases ha : s.seq.active = true
    swap
    · rw [(of_inactive (by simpa using ha)).judgeStep]
      exact of_inactive (by simpa using ha)
    unfold Machine.judgeStep
    rw [if_pos ha, hc]
    dsimp only
    by_cases hd : dwellRun s st = true
    swap
    · rw [if_neg hd]
      intro _ x hx hxd
      exact absurd (Option.some.inj (hc.symm.trans hx) ▸ hxd) hd
    rw [if_pos hd]
    by_cases hw : waitHolds s st.waitFor = true
    · rw [if_pos hw]
      split
      · exact hended _
      · cases hx : st.next with
        | none => exact hended _
        | some j =>
          obtain ⟨hj, htj⟩ := hnext j hx
          obtain ⟨x, hxj⟩ := Option.isSome_iff_exists.1 hj
          dsimp only
          rw [hxj]
          have hcfg : (beginStep j x s).1.cfg = s.cfg := beginStep_kept j x s .cfg (by decide)
          exact ih (s := (beginStep j x s).1) (by rw [hcfg]; exact htj) (by rw [beginStep_seq]) (by omega)
    · rw [if_neg hw]
      have hwf : waitHolds s st.waitFor = false := by simpa using hw
      split
      · intro _ x hx _
        have hxs : st = x := Option.some.inj (hc.symm.trans hx)
        exact ⟨by rw [waitHolds_seq, ← hxs]; exact hwf, rfl⟩
      · rename_i hws
        intro _ x hx _
        have hxs : st = x := Option.some.inj (hc.symm.trans hx)
        exact ⟨by rw [← hxs]; exact hwf, Bool.eq_false_iff.2 hws⟩

/-- START of a list that can be traced to its end leaves the sequencer idle (R126, R132). -/
theorem of_seqStart {l : ListName} {s : State} (h : s.seq.active = false) (ht : (traceList s.cfg.steps 24 [] (headOf s.cfg l)).isSome = true) :
    SeqIdle (seqStart l s).1 := by
  obtain ⟨st, hst, -⟩ := traceList_step ht
  simp only [seqStart, h, Bool.false_eq_true, if_false, hst]
  have hcfg (t : State) : (beginStep (headOf s.cfg l) st t).1.cfg = t.cfg := beginStep_kept _ _ _ .cfg (by decide)
  exact of_judgeStep (n := 24) (by rw [hcfg]; exact ht) (by rw [beginStep_seq]) (by decide)

end SeqIdle

/-! ### A crossing at rest: CLOSED only with every post DOWN (R113, R114, R137) -/

theorem isPost_congr {s t : State} (h : t.cfg = s.cfg) : isPost t = isPost s := by
  simp only [isPost, ownRoles, h]

theorem allDown_congr {s t : State} (hcfg : t.cfg = s.cfg) (hb : t.barrier = s.barrier) (hp : t.peers = s.peers) : allDown t = allDown s := by
  simp only [allDown, posts, postBarrier, peerAt, hcfg, hb, hp]

/-- A station whose sequencer, barrier and phase unit have nothing left to do, and which is CLOSED only with every post DOWN. -/
structure Rests (t : State) : Prop where
  idle : isPost t = true → SeqIdle t
  settled : BarrierSettled t
  deferred : isPost t = true → t.phase.deferred = none
  halt : t.phase.haltPending = false
  down : t.phase.phase = .closed → allDown t = true

namespace Rests

/-- A change of parts that the sequencer, the drive and the report of the posts do not read, with the phase, its deferred list and its halt mark kept. -/
theorem congr {l : List Part} {s t : State} (hk : KeptBut l s t) (hl : ∀ p ∈ [Part.clock, .cfg, .join, .barrier, .seq, .peers], p ∉ l)
    (hp : t.phase.phase = s.phase.phase) (hd : t.phase.deferred = s.phase.deferred) (hh : t.phase.haltPending = s.phase.haltPending) (h : Rests s) :
    Rests t := by
  have hcfg : t.cfg = s.cfg := hk .cfg (hl _ (by decide))
  have hb : t.barrier = s.barrier := hk .barrier (hl _ (by decide))
  have hpeers : t.peers = s.peers := hk .peers (hl _ (by decide))
  have hc : t.clock = s.clock := hk .clock (hl _ (by decide))
  exact ⟨fun hpost => (h.idle (isPost_congr hcfg ▸ hpost)).congr hc hcfg (hk .seq (hl _ (by decide))) hb hpeers,
    h.settled.congr hc hcfg (hk .join (hl _ (by decide))) hb (by rw [hp]), fun hpost => hd.trans (h.deferred (isPost_congr hcfg ▸ hpost)),
    hh.trans h.halt, fun hcl => (allDown_congr hcfg hb hpeers).trans (h.down (hp ▸ hcl))⟩

theorem releaseUpkeep {t : State} (h : Rests t) : Rests (releaseUpkeep t) := by
  obtain ⟨r, e, l, hp, -⟩ := releaseUpkeep_phaseUnit t
  exact h.congr (releaseUpkeep_kept t) (by decide) (by rw [hp]) (by rw [hp]) (by rw [hp])

/-- At rest the move from CLOSING to CLOSED hands nothing on, and leaves the station at rest. -/
theorem movePhase_closed {t : State} (h : Rests t) (hp : t.phase.phase = .closing) (hd : allDown t = true) :
    Rests (movePhase .closed t).1 ∧ (movePhase .closed t).2 = [] := by
  have hopening : (entered .closed t).phase.phase = .opening ↔ t.phase.phase = .opening := by
    rw [hp]
    exact ⟨nofun, nofun⟩
  have hsettle : BarrierSettled (entered .closed t) := BarrierSettled.congr (s := t) (t := entered .closed t) rfl rfl rfl rfl hopening h.settled
  have hmove : movePhase .closed t = (judgeDcis (if isPost t then defer none (entered .closed t) else entered .closed t), []) := by
    rw [movePhase_eq (by decide), hsettle.settle]
    dsimp only
    rw [seqRequests_unwanted (s := entered .closed t) rfl]
    rfl
  have hdown : allDown (entered .closed t) = true := hd
  rw [hmove]
  refine ⟨congr (judgeDcis_kept _) (by decide) rfl rfl rfl ?_, rfl⟩
  have hidle (hpost : isPost t = true) : SeqIdle (entered .closed t) := h.idle hpost
  split
  · exact ⟨hidle, hsettle, fun _ => rfl, rfl, fun _ => hdown⟩
  · rename_i hn
    exact ⟨hidle, hsettle, fun hpost => absurd hpost hn, rfl, fun _ => hdown⟩

end Rests

/-- A station at rest under closing demand stays so through an evaluation, which hands nothing on. -/
theorem Rests.evaluate {s t : State} {n : Nat} (hd : ClosingOnly s) (hc : Closes s t) (h : Rests t) :
    Rests (evaluate n t).1 ∧ (evaluate n t).2 = [] := by
  induction n generalizing t with
  | zero => exact ⟨h, rfl⟩
  | succ n ih =>
    have hu := hc.releaseUpkeep
    have hr := h.releaseUpkeep
    obtain ⟨hf, hcl⟩ := hu.closingOnly hd
    rcases hu.phase with hp | hp
    · by_cases hdown : allDown (Machine.releaseUpkeep t) = true
      · rw [evaluate_moves hc.shut ((phaseAct_closing hf hcl hp).trans (if_pos hdown))]
        obtain ⟨hm, hs⟩ := hr.movePhase_closed hp hdown
        obtain ⟨he, hes⟩ := ih (Closes.of_movePhase hu.kept hu.sections (.inr rfl)) hm
        exact ⟨he, by rw [Work.andThen, hs, hes]; rfl⟩
      · rw [evaluate_stays hc.shut ((phaseAct_closing hf hcl hp).trans (if_neg hdown))]
        exact ⟨hr, rfl⟩
    · rw [evaluate_stays hc.shut (phaseAct_closed hf hcl hp)]
      exact ⟨hr, rfl⟩

/-- At a post at rest no signal changes more than an evaluation does. -/
theorem Rests.handleSig {s t : State} (hpost : isPost s = true) (hd : ClosingOnly s) (hc : Closes s t) (h : Rests t) (sig : Sig) :
    Rests (handleSig sig t).1 := by
  have hpt : isPost t = true := (isPost_congr (hc.kept .cfg (by decide))).trans hpost
  have hend : Rests (otherEnd t).1 := by
    have he := (h.evaluate (n := moveFuel) hd hc).1
    have hpe : isPost (Machine.evaluate moveFuel t).1 = true := (isPost_congr (evaluate_kept moveFuel t .cfg (by decide))).trans hpt
    simp only [otherEnd, Work.andThen, he.deferred hpe]
    exact he
  cases sig with
  | evaluate => exact (h.evaluate hd hc).1
  | judge =>
    rw [Machine.handleSig, (h.idle hpt).judgeStep]
    exact h
  | enteredJoined =>
    have hp : t.phase.phase ≠ .starting := by rcases hc.phase with hp | hp <;> rw [hp] <;> decide
    simp only [Machine.handleSig, if_neg hp]
    exact h
  | seqEnded how => cases how <;> simpa only [Machine.handleSig, h.halt, Bool.false_eq_true, if_false] using hend

theorem Rests.drain {s t : State} {fuel : Nat} {sigs : List Sig} (hpost : isPost s = true) (hd : ClosingOnly s) (hc : Closes s t) (h : Rests t) :
    Rests (drain fuel sigs t) := by
  induction fuel generalizing sigs t with
  | zero => exact h
  | succ n ih =>
    cases sigs with
    | nil => exact h
    | cons sig rest => exact ih (hc.handleSig hd sig) (h.handleSig hpost hd hc sig)

/-! ### The move to CLOSING under the law of the sequencer (R126, R137) -/

/-- The requests at the entry of a post into CLOSING, whose run in progress can be OPEN's alone: CLOSE starts where no run is in progress. -/
theorem seqRequests_closing {s : State} (hpost : isPost s = true) (hp : s.phase.phase = .closing) (hb : BarrierSettled s)
    (hl : s.seq.active = true → s.seq.list = some .opn) :
    ∃ w, (seqRequests s).1 = (seqStart .close w).1 ∧ w.seq.active = false ∧ BarrierSettled w ∧ w.phase = { s.phase with deferred := none }
      ∧ w.cfg = s.cfg := by
  by_cases ha : s.seq.active = true
  · have hlist := hl ha
    have hstop : (seqStop (defer none s)).1 = (handCommand .release { defer none s with seq := s.seq.ended .stopped }).1 := by
      rw [seqStop, if_pos (show (defer none s).seq.active = true from ha)]
      rfl
    have hk := handCommand_kept .release { defer none s with seq := s.seq.ended .stopped }
    refine ⟨(seqStop (defer none s)).1, ?_, ?_, ?_, ?_, ?_⟩
    · simp [seqRequests, hpost, hp, wantedList, ha, hlist, Work.andThen]
    · rw [hstop, hk .seq (by decide)]
      exact SeqUnit.ended_active _ _
    · rw [hstop]
      exact BarrierSettled.handCommand _ _
    · rw [hstop, hk .phase (by decide)]
      rfl
    · rw [hstop, hk .cfg (by decide)]
      rfl
  · have hn : s.seq.active = false := by simpa using ha
    exact ⟨defer none s, by simp [seqRequests, hpost, hp, wantedList, hn], hn, hb, rfl, rfl⟩

/-- The move from OPEN or OPENING to CLOSING leaves a lawful station at rest; a station that is no post gives no signal. -/
theorem rests_movePhase_closing {s : State} (hj : s.join.state = .joined) (hl : SeqLaw s) (ho : s.phase.phase = .opened ∨ s.phase.phase = .opening) :
    Rests (movePhase .closing s).1 ∧ (isPost s = false → (movePhase .closing s).2 = []) := by
  obtain ⟨htrace, hopn⟩ := hl
  have hk := barrierSettle_kept (entered .closing s)
  have hsettled := BarrierSettled.of_settle (entered .closing s)
  have hphase : (barrierSettle (entered .closing s)).1.phase = s.phase.enter s.clock.ms (islandsClear s) .closing := hk .phase (by decide)
  have hseq : (barrierSettle (entered .closing s)).1.seq = s.seq := hk .seq (by decide)
  have hcfg : (barrierSettle (entered .closing s)).1.cfg = s.cfg := hk .cfg (by decide)
  have hpost : isPost (barrierSettle (entered .closing s)).1 = isPost s := isPost_congr hcfg
  rw [movePhase_eq (by decide)]
  suffices h : Rests (seqRequests (barrierSettle (entered .closing s)).1).1
      ∧ (isPost s = false → (barrierSettle (entered .closing s)).2 ++ (seqRequests (barrierSettle (entered .closing s)).1).2 = []) by
    exact ⟨h.1.congr (judgeDcis_kept _) (by decide) rfl rfl rfl, h.2⟩
  cases hs : isPost s with
  | false =>
    have hreq : seqRequests (barrierSettle (entered .closing s)).1 = ((barrierSettle (entered .closing s)).1, []) :=
      if_neg (by rw [hpost, hs]; decide)
    have hsig : barrierSettle (entered .closing s) = (entered .closing s, []) :=
      if_neg (by simp [barrierServed, isPost_congr (show (entered .closing s).cfg = s.cfg from rfl), hs])
    rw [hreq]
    refine ⟨⟨fun h => ?_, hsettled, fun h => ?_, by rw [hphase]; rfl, fun h => ?_⟩, fun _ => by rw [hsig]; rfl⟩
    · rw [hpost, hs] at h
      exact absurd h (by decide)
    · rw [hpost, hs] at h
      exact absurd h (by decide)
    · rw [hphase] at h
      exact absurd (show Phase.closing = .closed from h) (by decide)
  | true =>
    obtain ⟨w, hw, hwa, hwb, hwp, hwc⟩ := seqRequests_closing (hpost.trans hs) (by rw [hphase]; rfl) hsettled
      (by rw [hseq]; exact (hopn hs ho).2)
    have hph : (seqStart .close w).1.phase = { s.phase.enter s.clock.ms (islandsClear s) .closing with deferred := none } := by
      rw [seqStart_kept _ _ .phase (by decide), hwp, hphase]
    have htr : (traceList w.cfg.steps 24 [] (headOf w.cfg .close)).isSome = true := by
      rw [hwc, hcfg]
      exact htrace (by rw [hj]; decide) (by rw [hj]; decide) .close
    rw [hw]
    refine ⟨⟨fun _ => SeqIdle.of_seqStart hwa htr, hwb.seqStart _, fun _ => by rw [hph], by rw [hph]; rfl, fun h => ?_⟩, fun h => absurd h (by decide)⟩
    rw [hph] at h
    exact absurd (show Phase.closing = .closed from h) (by decide)

/-! ### The expiry of a deadline (R33) -/

theorem closingOnly_advance {dt : Nat} {s : State} {r : Sect} {d : Time} (hf : failureDemand s = false) (hr : r ∈ s.sections)
    (ha : r.approaching = true) (hh : r.held = false) (hd : r.deadline = some d) (hre : reached (advance dt s).clock.ms d = true) :
    ClosingOnly (advance dt s) := by
  constructor
  · have hst (q : Peer → Bool) (hq : ∀ n p, q (Peer.grow n p) = q p) (g : Peer → CondId) (hg : ∀ n p, g (Peer.grow n p) = g p) :
        ((advance dt s).peers.filter q).map g = (s.peers.filter q).map g := by
      simp only [advance, List.filter_map, List.map_map, Function.comp_def, hq, hg]
    rw [← hf, failureDemand, failureDemand, failureCauses, failureCauses, hst _ (fun _ _ => rfl) _ (fun _ _ => rfl),
      hst _ (fun _ _ => rfl) _ (fun _ _ => rfl)]
    rfl
  · rw [advance_clock] at hre
    have hap : r.isApproach = true := by
      simp only [Sect.approaching, Bool.and_eq_true] at ha
      exact ha.1.1
    exact List.any_eq_true.2 ⟨r, hr, by simp [Sect.demands, hap, ha, hh, hd, hre]⟩

/-- The evaluation of a station that is OPEN or OPENING under closing demand alone moves it to CLOSING, and is evaluated again (R106, R113). -/
theorem handleSig_evaluate_open {s : State} (hd : ClosingOnly s) (ho : s.phase.phase = .opened ∨ s.phase.phase = .opening) :
    handleSig .evaluate s = (movePhase .closing s).andThen (evaluate 15) := by
  have hne : s.phase.phase ≠ .closed := by rcases ho with h | h <;> rw [h] <;> decide
  have hup := releaseUpkeep_open hne
  have hmove := evaluate_moves (n := 15) (p := .closing) (fun hc => absurd hc hne) (by rw [hup]; exact phaseAct_open hd.failure hd.closing ho)
  rwa [hup] at hmove

/-- Such a station is CLOSING or CLOSED after the evaluation and the signals that follow it; under the law of the sequencer it is CLOSED only with every
post DOWN. -/
theorem drain_evaluate_open {s : State} {n : Nat} (hd : ClosingOnly s) (ho : s.phase.phase = .opened ∨ s.phase.phase = .opening) :
    Closes s (drain (n + 1) [.evaluate] s) ∧ (SeqLaw s → Rests (drain (n + 1) [.evaluate] s)) := by
  have hm : Closes s (movePhase .closing s).1 := Closes.of_movePhase (KeptBut.refl _ s) rfl (.inl rfl)
  have hc : Closes s (evaluate 15 (movePhase .closing s).1).1 := hm.evaluate hd
  rw [drain_cons, List.nil_append, handleSig_evaluate_open hd ho, Work.andThen]
  dsimp only
  refine ⟨hc.drain hd, fun hl => ?_⟩
  have hj : s.join.state = .joined := by
    have hf := hd.failure
    simp only [failureDemand, Bool.or_eq_false_iff, bne_eq_false_iff_eq] at hf
    exact hf.1
  obtain ⟨hr, hquiet⟩ := rests_movePhase_closing hj hl ho
  obtain ⟨he, hsig⟩ := hr.evaluate (n := 15) hd hm
  cases hs : isPost s with
  | true => exact he.drain hs hd hc
  | false =>
    rw [hquiet hs, hsig, List.nil_append, drain_nil]
    exact he

/-- DEADLINE_EXPIRY of an approaching section whose deadline is reached is one evaluation (R33). -/
theorem exec_deadlineExpiry {dt sec : Nat} {s : State} {r : Sect} {d : Time} (hp : s.powered = true) (hat : sectAt s sec = some r)
    (ha : r.approaching = true) (hh : r.held = false) (hd : r.deadline = some d) (hre : reached (advance dt s).clock.ms d = true) :
    exec (.deadlineExpiry dt sec) s = .next (conclude (advance dt s) (drain drainFuel [.evaluate] (advance dt s))) := by
  have hexp : (sectAt (advance dt s) sec).any (Sect.expired (advance dt s).clock.ms) = true := by
    rw [show sectAt (advance dt s) sec = some r from hat]
    simp only [Option.any_some, Sect.expired, ha, hh, hd, hre, Bool.not_false, Bool.and_self]
  show Host.Outcome.next (event dt s (guarded (fun s => (sectAt s sec).any (Sect.expired s.clock.ms)) fun s => (s, [.evaluate]))) = _
  rw [event_eq hp, guarded_apply hexp]
  dsimp only
  rw [phaseInputsChanged_same rfl rfl]
  rfl

/-- Settles O31: the expiry is an evaluation; the move to CLOSING and what follows it keep the crossing closing (`Closes`), under the law of the sequencer
at rest (`Rests`), and the conclusion touches neither. -/
theorem deadlineExpiryClosesTheCrossing : Obligations.DeadlineExpiryClosesTheCrossing := by
  intro dt sec s r d hp ho hf hat ha hh hd hre
  obtain ⟨hcl, hrests⟩ := drain_evaluate_open (n := 1023) (closingOnly_advance hf (sectAt_mem hat) ha hh hd hre) ho
  have hk := conclude_kept (advance dt s) (drain drainFuel [.evaluate] (advance dt s))
  have hph := hk .phase (by decide)
  refine ⟨_, exec_deadlineExpiry hp hat ha hh hd hre, ?_, fun hl hc => ?_, (hk .sections (by decide)).trans hcl.sections⟩
  · rw [hph]
    exact hcl.phase
  · rw [hph] at hc
    exact (allDown_congr (hk .cfg (by decide)) (hk .barrier (by decide)) (hk .peers (by decide))).trans ((hrests hl).down hc)

end Sys2Proof.Machine
end

section
/-! ## The law of the section records (R40, R42, R49, R50, R57, R62): every record operation keeps it, and so does every step -/

namespace Sys2Proof.Machine

/-! ### Record operations -/

/-- A record that keeps its id, kind, balance and strike axles stays lawful unless its counts come to act on CLEAR. -/
theorem Sect.Lawful.of_kept {r q : Sect} (h : r.Lawful) (hid : q.id = r.id) (hkind : q.kind = r.kind) (hbal : q.balance = r.balance)
    (hstr : q.strikes = r.strikes) (heff : q.effective = some .clear → r.effective = some .clear) : q.Lawful := by
  obtain ⟨hk, hb, hs, hc⟩ := h
  exact ⟨by rw [hkind, hid]; exact hk, hbal.trans_le hb, hstr.trans_le hs, fun hq => hbal.trans (hc (heff hq))⟩

theorem Sect.start_lawful (restoring : Bool) (id : Nat) : (Sect.start restoring id).Lawful := ⟨rfl, Nat.zero_le _, Nat.zero_le _, fun _ => rfl⟩

theorem Sect.Lawful.disturb {r : Sect} (h : r.Lawful) : r.disturb.Lawful := by
  unfold Sect.disturb
  split
  · exact h
  · exact h.of_kept rfl rfl rfl rfl (by simp [Sect.effective])

theorem Sect.Lawful.forget {r : Sect} (h : r.Lawful) : r.forget.Lawful := by
  unfold Sect.forget
  split
  · exact h
  · exact h.of_kept rfl rfl rfl rfl (by simp [Sect.effective])

theorem Sect.Lawful.loseOwner {r : Sect} (h : r.Lawful) (n : Nat) : (r.loseOwner n).Lawful := by
  unfold Sect.loseOwner
  split
  iterate 3 next hs => exact h.of_kept rfl rfl rfl rfl (by simp [Sect.effective, hs])
  · split
    · exact h.of_kept rfl rfl rfl rfl fun he => he
    · exact h
  · exact h

/-- A balance given within 0 to 4095 to a DISTURBED record. -/
theorem Sect.Lawful.disturb_at {r : Sect} (h : r.Lawful) {b : Nat} (hb : b ≤ 4095) : ({ r.disturb with balance := b } : Sect).Lawful := by
  obtain ⟨hk, -, hs, -⟩ := h.disturb
  refine ⟨hk, hb, hs, fun he => ?_⟩
  have hd : r.disturb.state = .disturbed := r.disturb_state
  simp [Sect.effective, hd] at he

/-- A record emptied at a change to CLEAR with balance 0 (R50, R57). -/
theorem Sect.Lawful.emptied_at_zero {r q : Sect} (h : r.Lawful) (hid : q.id = r.id) (hkind : q.kind = r.kind) (hb : q.balance = 0) :
    q.emptied.Lawful := by
  obtain ⟨hk, -, -, -⟩ := h
  refine ⟨?_, ?_, Nat.zero_le _, fun _ => hb⟩
  · show q.kind = sectKindOf q.id
    rw [hkind, hid]
    exact hk
  · show q.balance ≤ 4095
    omega

theorem Sect.withEffective_same (r : Sect) (st : SectState) : (r.withEffective st).id = r.id ∧ (r.withEffective st).kind = r.kind
    ∧ (r.withEffective st).balance = r.balance ∧ (r.withEffective st).strikes = r.strikes := by
  unfold Sect.withEffective
  split <;> exact ⟨rfl, rfl, rfl, rfl⟩

theorem Sect.withEffective_occupied (r : Sect) : (r.withEffective .occupied).effective = some .occupied := by
  unfold Sect.withEffective
  split
  next hu => simp [Sect.effective, hu]
  next => rfl

/-! ### What counts do to a record (R46, R49, R50, R55, R57) -/

section

variable {minSweep : Nat} {usable : Bool} {m : Moves} {r : Sect} {st : SectState}

/-- Counts act on no record that is DISTURBED, or UNKNOWN without an underlying state. -/
theorem Sect.count_untracked (he : r.effective = none) : r.count minSweep usable m = r := by
  unfold Sect.count
  rw [he]

theorem Sect.count_idle (hm : m.any = false) : r.count minSweep usable m = r := by
  unfold Sect.count
  rw [hm]
  split <;> rfl

section

variable (he : r.effective = some st) (hm : 0 < m.far + m.near + m.outs)
include he hm

theorem Sect.count_over (h : 4095 < r.balance + m.far + m.near) : r.count minSweep usable m = { r.disturb with balance := 4095 } := by
  simp [Sect.count, he, Moves.any, hm, ← Nat.add_assoc, h]

variable (hhi : r.balance + m.far + m.near ≤ 4095)
include hhi

theorem Sect.count_under (h : r.balance + m.far + m.near < m.outs) : r.count minSweep usable m = { r.disturb with balance := 0 } := by
  simp [Sect.count, he, Moves.any, hm, ← Nat.add_assoc, Nat.not_lt.mpr hhi, h]

variable (hlo : m.outs ≤ r.balance + m.far + m.near)
include hlo

/-- Counts within the bounds at a record that is not RESTORING: CLEAR at balance 0, OCCUPIED above it (R50). -/
theorem Sect.count_tracking (hst : st ≠ .restoring) : r.count minSweep usable m =
    if r.balance + m.far + m.near - m.outs = 0 then (Sect.withEffective { r with balance := r.balance + m.far + m.near - m.outs } .clear).emptied
    else { Sect.withEffective { r with balance := r.balance + m.far + m.near - m.outs } .occupied with
      tag := if r.isApproach then tagAfter r.tag (0 < m.far) (0 < m.near) else none } := by
  simp only [Sect.count, he, Moves.any, hm, decide_true, Bool.not_true, Bool.false_eq_true, if_false, ← Nat.add_assoc, Nat.not_lt.mpr hhi,
    Nat.not_lt.mpr hlo]

end

/-- Counts within the bounds at a RESTORING record, or one with that state underlying (R57). -/
theorem Sect.count_restoring (he : r.effective = some .restoring) (hm : 0 < m.far + m.near + m.outs) (hhi : r.balance + m.far + m.near ≤ 4095)
    (hlo : m.outs ≤ r.balance + m.far + m.near) : r.count minSweep usable m =
    if r.balance + m.far + m.near - m.outs = 0 ∧ 0 < m.outs ∧ minSweep ≤ min (r.sweepAxles + m.far + m.near) minSweep ∧ usable = true
      ∧ r.state = .restoring then (Sect.withEffective { r with balance := r.balance + m.far + m.near - m.outs } .clear).emptied
    else { r with balance := r.balance + m.far + m.near - m.outs, sweepAxles := min (r.sweepAxles + m.far + m.near) minSweep } := by
  simp only [Sect.count, he, Moves.any, hm, decide_true, Bool.not_true, Bool.false_eq_true, if_false, ← Nat.add_assoc, Nat.not_lt.mpr hhi,
    Nat.not_lt.mpr hlo]

end

/-- Counts keep a record lawful: the bounds hold the balance within 0 to 4095, and the record comes to CLEAR only at 0 (R49, R50). -/
theorem Sect.Lawful.count {r : Sect} (h : r.Lawful) (minSweep : Nat) (usable : Bool) (m : Moves) : (r.count minSweep usable m).Lawful := by
  rcases he : r.effective with _ | st
  · rw [Sect.count_untracked he]
    exact h
  by_cases hm : 0 < m.far + m.near + m.outs
  swap
  · rw [Sect.count_idle (by simpa [Moves.any] using hm)]
    exact h
  by_cases hhi : r.balance + m.far + m.near ≤ 4095
  swap
  · rw [Sect.count_over he hm (by omega)]
    exact h.disturb_at (le_refl _)
  by_cases hlo : m.outs ≤ r.balance + m.far + m.near
  swap
  · rw [Sect.count_under he hm hhi (by omega)]
    exact h.disturb_at (Nat.zero_le _)
  have hzero (hz : r.balance + m.far + m.near - m.outs = 0) :
      (Sect.withEffective { r with balance := r.balance + m.far + m.near - m.outs } .clear).emptied.Lawful := by
    obtain ⟨hid, hkind, hbal, -⟩ := Sect.withEffective_same { r with balance := r.balance + m.far + m.near - m.outs } .clear
    exact h.emptied_at_zero hid hkind (hbal.trans hz)
  obtain ⟨hk, hb, hs, -⟩ := h
  by_cases hst : st = .restoring
  · subst hst
    rw [Sect.count_restoring he hm hhi hlo]
    split
    next hz => exact hzero hz.1
    next => exact ⟨hk, (Nat.sub_le _ _).trans hhi, hs, fun hc => absurd (he.symm.trans hc) (by decide)⟩
  · rw [Sect.count_tracking he hm hhi hlo hst]
    split
    next hz => exact hzero hz
    next =>
      obtain ⟨hid, hkind, hbal, hstr⟩ := Sect.withEffective_same { r with balance := r.balance + m.far + m.near - m.outs } .occupied
      refine ⟨(hkind.trans hk).trans (by rw [hid]), hbal.trans_le ((Nat.sub_le _ _).trans hhi), hstr.trans_le hs, fun hc => ?_⟩
      exact absurd ((Sect.withEffective_occupied _).symm.trans hc) (by decide)

theorem Sect.Lawful.earlierDeadline {r : Sect} (h : r.Lawful) (c : Time) : (r.earlierDeadline c).Lawful := by
  unfold Sect.earlierDeadline
  split
  · exact h.of_kept rfl rfl rfl rfl fun he => he
  · split
    · exact h.of_kept rfl rfl rfl rfl fun he => he
    · exact h

theorem Sect.Lawful.applyMoves {r : Sect} (h : r.Lawful) (now : Time) (minSweep : Nat) (usable : Bool) (m : Moves) :
    (r.applyMoves now minSweep usable m).Lawful := by
  unfold Sect.applyMoves
  extract_lets r1 r2 r3
  have h1 : r1.Lawful := h.count minSweep usable m
  have h2 : r2.Lawful := by
    unfold r2
    split
    · exact h1.earlierDeadline now
    · exact h1
  have h3 : r3.Lawful := h2.of_kept rfl rfl rfl rfl fun he => he
  split
  · split
    · exact h3.earlierDeadline now
    · exact h3
  · exact h2

theorem Sect.Lawful.setBase {r : Sect} (h : r.Lawful) (d : Nat) (c : Option Counts) : (r.setBase d c).Lawful := by
  rcases r.setBase_cases d c with hb | hb <;> rw [hb] <;> exact h.of_kept rfl rfl rfl rfl fun he => he

theorem Sect.Lawful.applyFrame {r : Sect} (h : r.Lawful) (now : Time) (minSweep : Nat) (usable : Bool) (reps : List DpCounts) :
    (r.applyFrame now minSweep usable reps).Lawful := by
  unfold Sect.applyFrame
  extract_lets judged r1
  have h1 : r1.Lawful := by
    unfold r1
    split
    · exact (h.count _ _ _).disturb
    · split
      · exact h.forget
      · exact h.applyMoves _ _ _ _
  clear_value r1
  induction reps generalizing r1 with
  | nil => exact h1
  | cons d rest ih => exact ih (r1.setBase d.dp (some d.counts)) (h1.setBase _ _)

theorem Sect.Lawful.returnOwner {r : Sect} (h : r.Lawful) (now : Time) (n : Nat) : (r.returnOwner now n).Lawful := by
  unfold Sect.returnOwner
  split
  next u hstate hunder =>
    extract_lets aw r1
    have h1 : r1.Lawful := h.of_kept rfl rfl rfl rfl fun he => by
      have hu : u = .clear := by
        cases u <;> first | rfl | exact absurd he (by simp [r1, Sect.effective])
      simp [Sect.effective, hstate, hunder, hu]
    split
    · split
      · exact h1.earlierDeadline now
      · exact h1
    · exact h.of_kept rfl rfl rfl rfl fun he => he
  · exact h

theorem Sect.Lawful.candidate {r : Sect} (h : r.Lawful) (c : Time) : (r.candidate c).Lawful := by
  unfold Sect.candidate
  split
  · exact h.earlierDeadline c
  · exact h

theorem Sect.Lawful.closeAtOnce {r : Sect} (h : r.Lawful) (now : Time) (before : Sect) (taken : Bool) : (Sect.closeAtOnce now before taken r).Lawful := by
  unfold Sect.closeAtOnce
  split
  · exact h.earlierDeadline now
  · exact h

theorem Sect.Lawful.hold {r : Sect} (h : r.Lawful) : r.hold.Lawful := h.of_kept rfl rfl rfl rfl fun he => he

theorem Sect.Lawful.reset {r : Sect} (h : r.Lawful) (kind : ResetKind) (outer inner : Option Counts) : (r.reset kind outer inner).Lawful := by
  obtain ⟨hk, -, -, -⟩ := h
  exact ⟨hk, Nat.zero_le _, Nat.zero_le _, fun _ => rfl⟩

theorem Sect.Lawful.ownAxle {r : Sect} (h : r.Lawful) (now : Time) (minSweep : Nat) (usable : Bool) (u : DpUnit) (inward : Bool) :
    (r.ownAxle now minSweep usable u inward).Lawful := (h.applyMoves _ _ _ _).setBase _ _

/-- The strike axle counted keeps the bound of 4: it is counted only where the record has one left (R26). -/
theorem Sect.Lawful.crossingAxle {r : Sect} (h : r.Lawful) (now : Time) (minSweep : Nat) (usable : Bool) (u : DpUnit) (a : Axle) (delay : Nat) :
    (r.crossingAxle now minSweep usable u a delay).Lawful := by
  unfold Sect.crossingAxle
  extract_lets r1
  have h1 : r1.Lawful := h.ownAxle now minSweep usable u a.inward
  split
  next hm =>
    have hs : r.strikes < 4 := by
      simp only [Sect.measures, Bool.and_eq_true, decide_eq_true_eq] at hm
      exact hm.2
    obtain ⟨hk, hb, -, hc⟩ := h1
    unfold Sect.strikeAxle
    exact Sect.Lawful.candidate (r := { r1 with strikes := r.strikes + 1, t0 := some _ }) ⟨hk, hb, hs, hc⟩ _
  next => exact h1

/-- What stays of a change in declared lockout is lawful with the record and its change (R190). -/
theorem Sect.Lawful.stay {before after : Sect} (hb : before.Lawful) (ha : after.Lawful) : (before.stay after).Lawful := by
  rcases before.stay_cases after with h | ⟨-, h⟩ | ⟨hs, h⟩ <;> rw [h]
  · exact ha
  · exact hb.of_kept rfl rfl rfl rfl fun he => he
  · obtain ⟨hk, -, hstr, -⟩ := hb
    obtain ⟨-, hbal, -, -⟩ := ha
    exact ⟨hk, hbal, hstr, by simp [Sect.effective, hs]⟩

end Sys2Proof.Machine
end

section
/-! ## Every step keeps the section law -/

namespace Sys2Proof.Machine

/-! ### The section table -/

theorem SectionLaw.of_sections {s t : State} (h : t.sections = s.sections) (hs : SectionLaw s) : SectionLaw t := by
  unfold SectionLaw
  rw [h]
  exact hs

theorem SectionLaw.of_kept {l : List Part} {s t : State} (hk : KeptBut l s t) (hl : Part.sections ∉ l) (hs : SectionLaw s) : SectionLaw t :=
  hs.of_sections (hk .sections hl)

theorem putDp_sectionLaw {s : State} (hs : SectionLaw s) (u : DpUnit) : SectionLaw (putDp u s) := hs.of_sections (putDp_sections u s)

theorem mapView_sectionLaw {s : State} (hs : SectionLaw s) (d : Nat) (f : ViewEntry → ViewEntry) : SectionLaw (mapView d f s) :=
  hs.of_sections (mapView_sections d f s)

theorem mapPeer_sectionLaw {s : State} (hs : SectionLaw s) (n : Nat) (f : Peer → Peer) : SectionLaw (mapPeer n f s) :=
  hs.of_sections (mapPeer_sections n f s)

theorem putJoin_sectionLaw {s : State} (hs : SectionLaw s) (f : JoinUnit → JoinUnit) : SectionLaw (putJoin f s) :=
  hs.of_sections (putJoin_sections f s)

theorem putPort_sectionLaw {s : State} (hs : SectionLaw s) (c : PortCmd) (r : Option Reply) : SectionLaw (putPort c r s) :=
  hs.of_sections (putPort_sections c r s)

theorem dropAccepted_sectionLaw {s : State} (hs : SectionLaw s) : SectionLaw (dropAccepted s) := hs.of_sections (dropAccepted_sections s)

theorem putSect_sectionLaw {r : Sect} {s : State} (hr : r.Lawful) (hs : SectionLaw s) : SectionLaw (putSect r s) := by
  rcases hat : sectAt s r.id with _ | b
  · unfold putSect
    rw [hat]
    exact hs
  · intro q hq
    rw [putSect_sections hat] at hq
    obtain ⟨x, hx, rfl⟩ := List.mem_map.mp hq
    split
    · exact hr
    · exact hs x hx

theorem mapSect_sectionLaw {id : Nat} {f : Sect → Sect} {s : State} (hf : ∀ r : Sect, r.Lawful → (f r).Lawful) (hs : SectionLaw s) :
    SectionLaw (mapSect id f s) := by
  unfold mapSect
  split
  · exact hs
  next r hr =>
    have hlr : r.Lawful := hs r (sectAt_mem hr)
    refine putSect_sectionLaw ?_ hs
    split
    · exact hlr.stay (hf r hlr)
    · exact hf r hlr

/-- A fold of operations that each keep the law keeps it. -/
theorem SectionLaw.foldl {α : Type} {f : State → α → State} (hf : ∀ s x, SectionLaw s → SectionLaw (f s x)) (xs : List α) {s : State}
    (hs : SectionLaw s) : SectionLaw (xs.foldl f s) := by
  induction xs generalizing s with
  | nil => exact hs
  | cons x rest ih => exact ih (hf s x hs)

theorem mapSects_sectionLaw {ids : List Nat} {f : Sect → Sect} {s : State} (hf : ∀ r : Sect, r.Lawful → (f r).Lawful) (hs : SectionLaw s) :
    SectionLaw (mapSects ids f s) := SectionLaw.foldl (fun _ _ h => mapSect_sectionLaw hf h) ids hs

theorem dpFaultsSections_sectionLaw {d : Nat} {s : State} (hs : SectionLaw s) : SectionLaw (dpFaultsSections d s) :=
  mapSects_sectionLaw (fun _ h => h.disturb) hs

theorem loseOwner_sectionLaw {n : Nat} {s : State} (hs : SectionLaw s) : SectionLaw (loseOwner n s) :=
  mapSects_sectionLaw (fun _ h => h.loseOwner n) (hs.of_sections rfl)

theorem peerCounts_sectionLaw {reps : List DpCounts} {ret : Option Nat} {cand : Option (Nat × Time)} {s : State} (hs : SectionLaw s) :
    SectionLaw (peerCounts reps ret cand s) := by
  refine SectionLaw.foldl (fun w id h => mapSect_sectionLaw (fun r hr => ?_) h) _ hs
  extract_lets r1 r2 c r3
  have h1 : r1.Lawful := hr.applyFrame _ _ _ _
  have h2 : r2.Lawful := by
    unfold r2
    split
    · exact h1.returnOwner _ _
    · exact h1
  have h3 : r3.Lawful := by
    unfold r3
    cases c
    · exact h2
    · exact h2.candidate _
  exact h3.closeAtOnce _ _ _

theorem applyReset_sectionLaw {k : ResetKind} {id : Nat} {s : State} (hs : SectionLaw s) : SectionLaw (applyReset k id s) :=
  mapSect_sectionLaw (fun _ h => h.reset _ _ _) hs

theorem sectionLaw_start (restoring : Bool) (n : Nat) {s : State} (h : s.sections = (List.range n).map (Sect.start restoring)) : SectionLaw s := by
  intro r hr
  rw [h] at hr
  obtain ⟨id, -, rfl⟩ := List.mem_map.mp hr
  exact Sect.start_lawful restoring id

/-! ### The handling of signals -/

theorem makeRelease_sectionLaw {s : State} (hs : SectionLaw s) : SectionLaw (makeRelease s) := by
  refine SectionLaw.foldl (fun w id h => ?_) _ hs
  have hheld : SectionLaw (mapSect id Sect.hold w) := mapSect_sectionLaw (fun _ hr => hr.hold) h
  exact (hheld.of_kept (raiseCond_kept _ _) (by decide)).of_sections rfl

theorem sectionLaw_stable : SignalStable SectionLaw where
  still _ hs _ _ h := h.of_sections hs
  clears _ h := h.of_kept (clearCond_kept _ _) (by decide)
  raises _ h := h.of_kept (raiseCond_kept _ _) (by decide)
  releases _ h := makeRelease_sectionLaw h

/-! ### Detection points and calibration (chapter 01) -/

section

variable {slot : Slot} {s : State} (h : SectionLaw s)
include h

theorem setDpState_sectionLaw (st : DpState) : SectionLaw (setDpState slot st s) := by
  unfold setDpState
  split
  · exact h
  next u hu =>
    extract_lets s1
    have h1 : SectionLaw s1 := h.of_sections rfl
    split
    · exact h1
    split
    · exact dpFaultsSections_sectionLaw (h1.of_kept (raiseCond_kept _ _) (by decide))
    split
    · exact h1.of_kept (clearCond_kept _ _) (by decide)
    · exact h1

theorem dpWorks_sectionLaw : SectionLaw (dpWorks slot s) := by
  unfold dpWorks
  split
  · exact h
  · exact setDpState_sectionLaw (putDp_sectionLaw h _) _

theorem settleDp_sectionLaw : SectionLaw (settleDp slot s) := by
  unfold settleDp
  split
  · exact h
  · split
    · exact setDpState_sectionLaw h _
    · exact dpWorks_sectionLaw h

theorem unorderedEvent_sectionLaw (t : Time) : SectionLaw (unorderedEvent slot t s) := by
  unfold unorderedEvent
  extract_lets s1
  have h1 : SectionLaw s1 := h.of_sections rfl
  split
  · exact h1
  · extract_lets l
    split
    · exact setDpState_sectionLaw (putDp_sectionLaw h1 _) _
    · exact putDp_sectionLaw h1 _

theorem countAxle_sectionLaw (u : DpUnit) (a : Axle) : SectionLaw (countAxle u a s) := by
  unfold countAxle
  extract_lets v s1 cross now tm speed measured s2 s3 s4 s5
  have h1 : SectionLaw s1 := h.of_sections rfl
  have h2 : SectionLaw s2 := mapSects_sectionLaw (fun _ hr => hr.ownAxle _ _ _ _ _) h1
  have h3 : SectionLaw s3 := mapSect_sectionLaw (fun _ hr => hr.crossingAxle _ _ _ _ _ _) h2
  have h4 : SectionLaw s4 :=
    h3.of_kept (l := [.dps, .latches, .conds, .notices]) (KeptBut.ite (fun _ => noteSpeed_kept _ _ _ _) fun _ => KeptBut.refl _ _) (by decide)
  have h5 : SectionLaw s5 := h4.of_kept (l := [.latches, .conds, .notices])
    (KeptBut.ite (fun _ => ((setLatch_kept _ _).mono (by decide)).trans ((raiseCond_kept _ _).mono (by decide))) fun _ => KeptBut.refl _ _) (by decide)
  split
  · exact h5.of_kept (request_kept _ _) (by decide)
  · exact h5

theorem takeMove_sectionLaw (u : DpUnit) (m : Recognised) : SectionLaw (takeMove u m s) := by
  unfold takeMove
  extract_lets u1 s1
  have h1 : SectionLaw s1 := h.of_sections rfl
  split
  · exact h1
  · exact countAxle_sectionLaw h1 _ _

theorem takeEdges_sectionLaw (first second : Bool) : SectionLaw (takeEdges slot first second s) := by
  unfold takeEdges
  split
  · exact h
  next u hu =>
    extract_lets t u1 p
    split
    · exact h.of_sections rfl
    split
    · split
      · exact h.of_sections rfl
      · exact unorderedEvent_sectionLaw (putDp_sectionLaw h _) _
      · exact takeMove_sectionLaw h _ _
    · exact takeMove_sectionLaw h _ _

theorem startSweep_sectionLaw (k : SweepKind) : SectionLaw (startSweep k slot s) := by
  unfold startSweep
  split
  · exact h
  · exact setDpState_sectionLaw (putDp_sectionLaw h _) _

theorem sweepReply_sectionLaw (k : SweepKind) (x y : SweepResult) : SectionLaw (sweepReply k x y s) :=
  h.of_kept (sweepReply_kept k x y s) (by decide)

theorem enterResult_sectionLaw (p : HeadPos) (r : SweepResult) : SectionLaw (enterResult slot p r s) := by
  unfold enterResult
  split
  · exact h
  · split
    · exact (h.of_kept (putDp_kept _ _) (by decide)).of_kept (clearCond_kept _ _) (by decide)
    · exact h.of_kept (raiseCond_kept _ _) (by decide)
    · exact h
    · exact h

theorem endSweep_sectionLaw (k : SweepKind) (x y : SweepResult) (l : Levels) : SectionLaw (endSweep slot k x y l s) := by
  unfold endSweep
  split
  · exact h
  · exact sweepReply_sectionLaw (settleDp_sectionLaw (putDp_sectionLaw h _)) _ _ _

theorem headDone_sectionLaw (w : Sweep) (r : SweepResult) (l : Levels) : SectionLaw (headDone slot w r l s) := by
  unfold headDone
  split
  · exact h
  · extract_lets p s1
    have h1 : SectionLaw s1 := enterResult_sectionLaw h _ _
    split
    · exact endSweep_sectionLaw h1 _ _ _ _
    · split
      · exact h1
      · exact h1.of_sections rfl

theorem windowEnd_sectionLaw (n : Nat) (l : Levels) : SectionLaw (windowEnd slot n l s) := by
  unfold windowEnd
  split
  · exact h
  · split
    · exact h
    · extract_lets next prev
      split
      · split <;> exact h.of_kept (putSweep_kept _ _ _) (by decide)
      split
      · exact headDone_sectionLaw h _ _ _
      split
      · exact h.of_kept (putSweep_kept _ _ _) (by decide)
      · exact headDone_sectionLaw h _ _ _

theorem abandonSweep_sectionLaw (u : DpUnit) (w : Sweep) (l : Levels) : SectionLaw (abandonSweep slot u w l s) :=
  sweepReply_sectionLaw (settleDp_sectionLaw (putDp_sectionLaw h _)) _ _ _

theorem abandonStart_sectionLaw (u : DpUnit) (w : Sweep) (l : Levels) : SectionLaw (abandonStart slot u w l s) := by
  unfold abandonStart
  split
  · exact headDone_sectionLaw h _ _ _
  · exact h.of_kept (putSweep_kept _ _ _) (by decide)

theorem supplyCheck_sectionLaw (p : HeadPos) (x : Nat) (l : Levels) : SectionLaw (supplyCheck slot p x l s) := by
  unfold supplyCheck
  split
  · exact h
  next u hu =>
    extract_lets u1 u2 s1
    have h1 : SectionLaw s1 := h.of_sections rfl
    split
    · split
      · exact sweepReply_sectionLaw (setDpState_sectionLaw (putDp_sectionLaw h1 _) _) _ _ _
      · split
        · exact setDpState_sectionLaw h1 _
        · exact h1
    split
    · exact dpWorks_sectionLaw h1
    · exact h1

theorem leaveCalibrating_sectionLaw : SectionLaw (leaveCalibrating s) := h.of_kept (leaveCalibrating_kept s) (by decide)

theorem calibrateAct_sectionLaw (dp : Nat) : SectionLaw (calibrateAct dp s) := by
  unfold calibrateAct
  split
  · exact h.of_sections rfl
  split
  · exact startSweep_sectionLaw (putPort_sectionLaw h _ _) _
  split
  · exact startSweep_sectionLaw (putPort_sectionLaw h _ _) _
  · exact h.of_sections rfl

end

/-! ### Joining, peers and frames taken (chapters 03 to 05) -/

section

variable {s : State} (h : SectionLaw s)
include h

theorem setPeerState_sectionLaw (n : Nat) (st : PeerState) : SectionLaw (setPeerState n st s) := by
  unfold setPeerState
  split
  · exact h
  split
  · exact h
  extract_lets p1 p2 s1 s2 s3 s4 s5 s6
  have hc {c : CondId} {b : Prop} [Decidable b] {w : State} (hw : SectionLaw w) : SectionLaw (if b then clearCond c w else w) :=
    hw.of_kept (l := [.conds, .notices]) (KeptBut.ite (fun _ => clearCond_kept _ _) fun _ => KeptBut.refl _ _) (by decide)
  have hr {c : CondId} {b : Prop} [Decidable b] {w : State} (hw : SectionLaw w) : SectionLaw (if b then raiseCond c w else w) :=
    hw.of_kept (l := [.conds, .notices]) (KeptBut.ite (fun _ => raiseCond_kept _ _) fun _ => KeptBut.refl _ _) (by decide)
  have h1 : SectionLaw s1 := h.of_sections rfl
  have h6 : SectionLaw s6 := hr (hr (hc (hc (hc h1))))
  split
  · exact loseOwner_sectionLaw h6
  · exact h6

theorem enterJoined_sectionLaw : SectionLaw (enterJoined s).1 :=
  (SectionLaw.foldl (fun _ n hw => setPeerState_sectionLaw hw n .stale) _ (putJoin_sectionLaw h _)).of_kept (queueStatus_kept _) (by decide)

theorem enterLockedOut_sectionLaw : SectionLaw (enterLockedOut s).1 := by
  unfold enterLockedOut
  extract_lets s1 line s2
  have h2 : SectionLaw s2 := h.of_sections rfl
  split
  · exact (h2.of_kept (applyPattern_kept _ _ _) (by decide)).of_kept (handCommand_kept _ _) (by decide)
  · exact h2

theorem endJoining_sectionLaw : SectionLaw (endJoining s).1 := by
  unfold endJoining
  split
  · exact enterJoined_sectionLaw h
  · exact enterLockedOut_sectionLaw h

theorem testCompletion_sectionLaw : SectionLaw (testCompletion s).1 := by
  unfold testCompletion
  split
  · exact endJoining_sectionLaw h
  · exact h

theorem answerHail_sectionLaw (n : Nat) : SectionLaw (answerHail n s) := h.of_kept (answerHail_kept n s) (by decide)

theorem takeStrike_sectionLaw (a : Accepted) (b : StrikeBody) : SectionLaw (takeStrike a b s) := by
  unfold takeStrike
  split
  · exact peerCounts_sectionLaw (mapView_sectionLaw h _ _)
  · exact h

theorem enterDpState_sectionLaw (e : Byte) (r : DpReport) : SectionLaw (enterDpState e s r) := by
  unfold enterDpState
  extract_lets before s1
  have h1 : SectionLaw s1 := h.of_sections rfl
  split
  · exact dpFaultsSections_sectionLaw h1
  · exact h1

theorem takeReports_sectionLaw (n : Nat) (e : Byte) (l : List DpReport) (ret : Bool) : SectionLaw (takeReports n e l ret s) :=
  SectionLaw.foldl (fun _ r hw => enterDpState_sectionLaw hw e r) _ (peerCounts_sectionLaw h)

theorem liveEntry_sectionLaw (a : Accepted) (b : StatusBody) (p : Peer) : SectionLaw (liveEntry a b p s) := by
  unfold liveEntry
  extract_lets s1
  have h1 : SectionLaw s1 := setPeerState_sectionLaw (mapPeer_sectionLaw h _ _) _ _
  split
  · exact h1
  · exact sectionLaw_stable.drain h1

theorem enterStatus_sectionLaw (a : Accepted) (b : StatusBody) (p : Peer) : SectionLaw (enterStatus a b p s) := by
  unfold enterStatus
  extract_lets s1
  have handed : SectionLaw (statusHandedOn a b p s) := sectionLaw_stable.drain (takeReports_sectionLaw (liveEntry_sectionLaw h a b p) _ _ _ _)
  have h1 : SectionLaw s1 := (handed.of_kept (statusMeasure_kept _ _ _ _) (by decide)).of_kept (noticeSync_kept _) (by decide)
  split
  · exact h1.of_kept (compareStatus_kept _ _ _ _) (by decide)
  · exact h1

theorem takeStatus_sectionLaw (a : Accepted) (b : StatusBody) : SectionLaw (takeStatus a b s).1 := by
  unfold takeStatus
  split
  · exact h
  next p hp =>
    extract_lets s1
    have h1 : SectionLaw s1 := by
      unfold s1
      split
      · exact enterStatus_sectionLaw h a b p
      · exact setPeerState_sectionLaw (mapPeer_sectionLaw h _ _) _ _
    exact testCompletion_sectionLaw (h1.of_kept (setVerdict_kept _ _ _) (by decide))

theorem takeJoin_sectionLaw (a : Accepted) (b : JoinBody) : SectionLaw (takeJoin a b s) := by
  unfold takeJoin
  split
  · exact h
  · exact (setPeerState_sectionLaw (mapPeer_sectionLaw h _ _) _ _).of_kept (setVerdict_kept _ _ _) (by decide)

theorem attemptEnd_sectionLaw (f : Flight) : SectionLaw (attemptEnd f s).1 := by
  unfold attemptEnd
  split
  · unfold attemptSent
    extract_lets s1
    have h1 : SectionLaw s1 := h.of_kept (frameSent_kept _ _) (by decide)
    split
    · exact testCompletion_sectionLaw (putJoin_sectionLaw h1 _)
    · exact h1
  · exact h.of_kept (attemptFailed_kept _ _) (by decide)

theorem resetAct_sectionLaw (sec : Nat) (kind : ResetKind) : SectionLaw (resetAct sec kind s) := by
  unfold resetAct
  split
  · exact h.of_sections rfl
  · exact (applyReset_sectionLaw (putPort_sectionLaw h _ _)).of_kept (request_kept _ _) (by decide)

end

end Sys2Proof.Machine
end

section
namespace Sys2Proof.Machine

/-! ### The work of the commands -/

/-- Work that keeps the section law. -/
def KeepsSectionLaw (f : State → Work) : Prop := ∀ s, SectionLaw s → SectionLaw (f s).1

namespace KeepsSectionLaw

theorem event {f : State → Work} (hf : KeepsSectionLaw f) (dt : Nat) {s : State} (hs : SectionLaw s) : SectionLaw (event dt s f) := by
  have ha : SectionLaw (advance dt s) := hs.of_sections rfl
  cases hp : s.powered with
  | false => rw [event_unpowered hp]; exact ha
  | true => exact sectionLaw_stable.event hp (hf _ ha)

theorem plain {f : State → State} (hf : ∀ s, SectionLaw s → SectionLaw (f s)) : KeepsSectionLaw (plain f) := hf

theorem guarded {f : State → Work} (hf : KeepsSectionLaw f) (c : State → Bool) : KeepsSectionLaw (guarded c f) := fun s hs => by
  unfold Machine.guarded
  split
  · exact hf s hs
  · exact hs

/-- Work that leaves the section table alone. -/
theorem of_sections {f : State → Work} (hf : ∀ s, (f s).1.sections = s.sections) : KeepsSectionLaw f := fun s hs => hs.of_sections (hf s)

theorem of_kept {l : List Part} {f : State → Work} (hf : ∀ s, KeptBut l s (f s).1) (hl : Part.sections ∉ l) : KeepsSectionLaw f :=
  of_sections fun s => hf s .sections hl

theorem takeCommand {cmd : PortCmd} {act : State → State} (hf : ∀ s, SectionLaw s → SectionLaw (act s)) :
    KeepsSectionLaw (Machine.plain (takeCommand cmd act)) := fun s hs => by
  unfold Machine.plain Machine.takeCommand
  split
  · exact hs.of_kept (busyPort_kept s) (by decide)
  split
  · exact putPort_sectionLaw hs _ _
  · exact hf s hs

theorem answered {cmd : PortCmd} {r : State → Reply} : KeepsSectionLaw (Machine.plain (answered cmd r)) :=
  takeCommand fun _ hs => putPort_sectionLaw hs _ _

end KeepsSectionLaw

/-! ### Every command -/

theorem powerOn_sectionLaw (s : State) : SectionLaw (powerOn s) := fun _ hr => absurd hr (List.not_mem_nil)

theorem maintainerRestart_sectionLaw (s : State) : SectionLaw (maintainerRestart s) := fun _ hr => absurd hr (List.not_mem_nil)

/-- The end of LOADING builds the section table anew, of lawful start records, or leaves it (R40, R190, R192). -/
theorem loaded_sectionLaw (o : LoadOutcome) {s : State} (hs : SectionLaw s) : SectionLaw (loaded o s) := by
  have service (im : Image) (d : Half) (c : Bool) (w : State) : SectionLaw (beginService im d c w) := by
    have built : SectionLaw (beginProving (beginReception (build im d w))) := sectionLaw_start im.startRestoring (3 * im.tracks) rfl
    have outputs : SectionLaw (startOutputs (beginProving (beginReception (build im d w)))) :=
      built.of_kept (l := [.lights, .conds, .notices]) (KeptBut.ite (fun _ => applyPattern_kept _ _ _) fun _ => KeptBut.refl _ _) (by decide)
    have conds : SectionLaw (sectionStartConds (startOutputs (beginProving (beginReception (build im d w))))) :=
      SectionLaw.foldl (fun _ _ h => h.of_kept (raiseCond_kept _ _) (by decide)) _ outputs
    exact conds.of_kept (l := [.conds, .notices]) (KeptBut.ite (fun _ => raiseCond_kept _ _) fun _ => KeptBut.refl _ _) (by decide)
  cases o with
  | passed im d c =>
    refine leaveCalibrating_sectionLaw (SectionLaw.foldl (fun _ slot h => startSweep_sectionLaw h .start) _ ?_)
    unfold beginSignaller
    split
    · exact SectionLaw.of_kept (noticeSync_kept _) (by decide) ((service im d c _).of_sections rfl)
    · exact service im d c _
  | declared im d c => exact ((service im d c _).of_kept (raiseCond_kept _ _) (by decide)).of_kept (request_kept _ _) (by decide)
  | blind own => exact (putJoin_sectionLaw hs _).of_kept (raiseCond_kept _ _) (by decide)

theorem loadingEnd_keeps (answers : Bool) (readBack : Option Byte) : KeepsSectionLaw
    (plain fun s => loaded (loadCheck answers (readBackOk readBack s) s.mem) (countRestart answers readBack s)) := fun s hs => by
  refine loaded_sectionLaw _ ?_
  unfold countRestart
  split <;> exact hs.of_sections rfl

/-- A command that keeps the section law. -/
def KeepsSections (c : Instr) : Prop := ∀ s, SectionLaw s → ∃ t, exec c s = .next t ∧ SectionLaw t

theorem KeepsSections.of_event {c : Instr} {dt : Nat} {f : State → Work} (he : ∀ s, exec c s = .next (event dt s f)) (hf : KeepsSectionLaw f) :
    KeepsSections c := fun s hs => ⟨_, he s, hf.event dt hs⟩

namespace KeepsSections

variable (dt : Nat)

/-! Commands whose work moves no section: each is a change of another part, or the work of a block that keeps the table. -/

theorem flashCycleBoundary : KeepsSections (.flashCycleBoundary dt) := .of_event (fun _ => rfl) (.of_sections fun s => by
  simp only [plain]
  split
  · rfl
  · unfold cycleBoundary
    split <;> rfl)

theorem lampHotSample (a : Aspect) (x y : Nat) : KeepsSections (.lampHotSample dt a x y) :=
  .of_event (fun _ => rfl) (.guarded (.plain fun _ h => by
    exact SectionLaw.of_kept (aspectResults_kept _ _ _ _ _) (by decide) (h.of_sections rfl)) _)

theorem lampTestSample (currents : LampCurrents) : KeepsSections (.lampTestSample dt currents) := .of_event (fun _ => rfl) (.plain fun s h => by
  have test {b : Bool} {a : Aspect} {lim : Limits} {x y : Nat} {w : State} (hw : SectionLaw w) : SectionLaw (if b then aspectTest a lim x y w else w) :=
    hw.of_kept (l := [.lights, .conds, .notices]) (KeptBut.ite (fun _ => aspectTest_kept _ _ _ _ _) fun _ => KeptBut.refl _ _) (by decide)
  split
  · exact h
  split
  · exact test (test (test (h.of_sections rfl)))
  · exact h)

theorem testPulseEnd (unit : PulseUnit) : KeepsSections (.testPulseEnd dt unit) := .of_event (fun _ => rfl) (.guarded (.of_sections fun s => by
  cases unit
  · exact endPulse_kept .lamps s .sections (by decide)
  · exact endPulse_kept .dcis s .sections (by decide)) _)

theorem contactSet_sectionLaw (first : Bool) (b : BarrierUnit) {s : State} (h : SectionLaw s) : SectionLaw (contactSet first b s).1 :=
  h.of_kept (contactSet_kept first b s) (by decide)

theorem contactChange (contact : Contact) : KeepsSections (.contactChange dt contact) := .of_event (fun _ => rfl) (.guarded (fun s h => by
  split
  · exact h
  · exact contactSet_sectionLaw _ _ (h.of_sections rfl)) _)

theorem contactSample (input : FieldInput) (level : Bool) : KeepsSections (.contactSample dt input level) := by
  cases input with
  | contact c =>
    refine .of_event (fun _ => rfl) (.guarded (fun s h => ?_) _)
    unfold Machine.contactSample
    split
    · exact h
    extract_lets s1
    split
    · exact contactSet_sectionLaw _ _ (h.of_sections rfl)
    · exact h.of_sections rfl
  | key =>
    refine .of_event (fun _ => rfl) (.of_sections fun s => ?_)
    simp only [plain, keySample]
    split <;> rfl

theorem travelTimeout : KeepsSections (.travelTimeout dt) := .of_event (fun _ => rfl) (.guarded (fun s h => by
  have settled {w : State} (hw : SectionLaw w) : SectionLaw (barrierSettle w).1 := hw.of_kept (barrierSettle_kept w) (by decide)
  unfold travelEnd
  split
  · exact settled (h.of_sections rfl)
  · exact settled (SectionLaw.of_kept (raiseCond_kept _ _) (by decide) (h.of_sections rfl))) _)

theorem contactFaultTimeout : KeepsSections (.contactFaultTimeout dt) := .of_event (fun _ => rfl) (.guarded (fun _ h => by
  exact SectionLaw.of_kept (barrierSettle_kept _) (by decide) (SectionLaw.of_kept (raiseCond_kept _ _) (by decide) (h.of_sections rfl))) _)

theorem idleGapEnd : KeepsSections (.idleGapEnd dt) := .of_event (fun _ => rfl) (.plain fun s h => by
  split
  · exact h
  · exact SectionLaw.of_kept (contend_kept _) (by decide) (h.of_sections rfl))

theorem signallerFrameEnd : KeepsSections (.signallerFrameEnd dt) := .of_event (fun _ => rfl) (.of_sections fun s => by
  simp only [plain]
  split
  · rfl
  split
  · unfold sigEnd
    split <;> rfl
  · rfl)

theorem ack (bytes : List RxByte) : KeepsSections (.ack dt bytes) := .of_event (fun _ => rfl) (.of_sections fun s => by
  simp only [plain]
  split
  · split <;> rfl
  · rfl)

theorem query (bytes : List RxByte) : KeepsSections (.query dt bytes) := .of_event (fun _ => rfl) (.of_sections fun s => by
  simp only [plain]
  split
  · split <;> rfl
  · rfl)

/-! Commands whose work may change section records. -/

theorem maintainerReplyEnd : KeepsSections (.maintainerReplyEnd dt) := fun s hs => by
  refine ⟨_, rfl, ?_⟩
  split
  · exact maintainerRestart_sectionLaw s
  · refine KeepsSectionLaw.event (.of_sections fun w => ?_) dt hs
    simp only [plain, replyEnd]
    split
    · rfl
    · split <;> rfl

theorem sweepAbandoned (slot : Slot) (cause : AbandonCause) (levels : Levels) : KeepsSections (.sweepAbandoned dt slot cause levels) :=
  .of_event (fun _ => rfl) (.plain fun s h => by
    split
    · exact h
    split
    · exact h
    split
    · extract_lets s1
      have h1 : SectionLaw s1 := h.of_sections rfl
      split
      · exact leaveCalibrating_sectionLaw (abandonStart_sectionLaw h1 _ _ _)
      · exact abandonSweep_sectionLaw h1 _ _ _
    · exact h)

theorem dueSweepStart (slot : Slot) : KeepsSections (.dueSweepStart dt slot) := .of_event (fun _ => rfl) (.plain fun s h => by
  split
  · exact h
  split
  · exact startSweep_sectionLaw h _
  · exact h)

theorem frameAttemptEnd : KeepsSections (.frameAttemptEnd dt) := .of_event (fun _ => rfl) (fun s h => by
  split
  · exact h
  split
  · exact attemptEnd_sectionLaw h _
  · exact h)

theorem joinWindowEnd : KeepsSections (.joinWindowEnd dt) := .of_event (fun _ => rfl) (.guarded (fun _ h => endJoining_sectionLaw h) _)

theorem strikeTaken : KeepsSections (.strikeTaken dt) := .of_event (fun _ => rfl) (.plain fun s h => by
  split
  · exact h
  split
  · exact takeStrike_sectionLaw (dropAccepted_sectionLaw h) _ _
  iterate 3 exact h)

theorem statusTaken : KeepsSections (.statusTaken dt) := .of_event (fun _ => rfl) (fun s h => by
  split
  · exact h
  split
  · exact takeStatus_sectionLaw (dropAccepted_sectionLaw h) _ _
  iterate 3 exact h)

theorem hailTaken : KeepsSections (.hailTaken dt) := .of_event (fun _ => rfl) (fun s h => by
  split
  · exact h
  split
  · split
    · exact testCompletion_sectionLaw (answerHail_sectionLaw (takeJoin_sectionLaw (dropAccepted_sectionLaw h) _ _) _)
    · exact h
  iterate 3 exact h)

theorem answerTaken : KeepsSections (.answerTaken dt) := .of_event (fun _ => rfl) (fun s h => by
  split
  · exact h
  split
  · split
    · exact testCompletion_sectionLaw (takeJoin_sectionLaw (dropAccepted_sectionLaw h) _ _)
    · exact h
  iterate 3 exact h)

theorem resetOrderTaken : KeepsSections (.resetOrderTaken dt) := .of_event (fun _ => rfl) (.plain fun s h => by
  split
  · exact h
  split
  · split
    · exact applyReset_sectionLaw (dropAccepted_sectionLaw h)
    · exact dropAccepted_sectionLaw h
  iterate 3 exact h)

end KeepsSections

theorem keepsSections (c : Instr) : KeepsSections c := by
  cases c with
  | powerOnReset dt => exact fun s _ => ⟨_, rfl, powerOn_sectionLaw s⟩
  | supplyRestored dt => exact fun s hs => ⟨_, rfl, hs.of_sections rfl⟩
  | maintainerReplyEnd dt => exact KeepsSections.maintainerReplyEnd dt
  | loadingEnd dt answers readBack => exact .of_event (fun _ => rfl) ((loadingEnd_keeps answers readBack).guarded _)
  | acceptedEdge dt slot first second => exact .of_event (fun _ => rfl) (.guarded (.plain fun s h => takeEdges_sectionLaw h _ _) _)
  | headSupplyCheck dt slot head mA levels => exact .of_event (fun _ => rfl) (.plain fun s h => leaveCalibrating_sectionLaw (supplyCheck_sectionLaw h _ _ _))
  | probeWindowEnd dt slot lowest levels =>
    exact .of_event (fun _ => rfl) (.guarded (.plain fun s h => leaveCalibrating_sectionLaw (windowEnd_sectionLaw h _ _)) _)
  | sweepAbandoned dt slot cause levels => exact KeepsSections.sweepAbandoned dt slot cause levels
  | dueSweepStart dt slot => exact KeepsSections.dueSweepStart dt slot
  | firstCoverAged dt slot => exact .of_event (fun _ => rfl) (.of_sections fun s => by simp only [plain]; split <;> [rfl; split <;> rfl])
  | calibrationTimerExpiry dt slot => exact .of_event (fun _ => rfl) (.of_sections fun s => by simp only [plain]; split <;> [rfl; split <;> rfl])
  | comparatorSample dt slot head level => exact .of_event (fun _ => rfl) (.of_kept (takeSample_kept slot head level) (by decide))
  | deadlineExpiry dt sec => exact .of_event (fun _ => rfl) (.guarded (.of_sections fun _ => rfl) _)
  | releaseTimerExpiry dt => exact .of_event (fun _ => rfl) (.guarded (.of_sections fun _ => rfl) _)
  | standingTestTime dt sec => exact .of_event (fun _ => rfl) (.guarded (.of_sections fun _ => rfl) _)
  | dwellEnd dt => exact .of_event (fun _ => rfl) (.guarded (.of_kept (judgeStep_kept _) (by decide)) _)
  | waitLimitExpiry dt => exact .of_event (fun _ => rfl) (.guarded (.of_kept (endRun_kept _) (by decide)) _)
  | flashCycleBoundary dt => exact KeepsSections.flashCycleBoundary dt
  | flashHalfPoint dt => exact .of_event (fun _ => rfl) (.guarded (.of_sections fun _ => rfl) _)
  | correctionLengthenEnd dt => exact .of_event (fun _ => rfl) (.of_sections fun s => by simp only [plain]; split <;> rfl)
  | lampHotSample dt aspect main second => exact KeepsSections.lampHotSample dt aspect main second
  | lampColdTest dt => exact .of_event (fun _ => rfl) (.guarded (.of_sections fun _ => rfl) _)
  | lampTestSample dt currents => exact KeepsSections.lampTestSample dt currents
  | testPulseEnd dt unit => exact KeepsSections.testPulseEnd dt unit
  | contactChange dt contact => exact KeepsSections.contactChange dt contact
  | contactSample dt input level => exact KeepsSections.contactSample dt input level
  | deadTimeEnd dt => exact .of_event (fun _ => rfl) (.of_kept barrierSettle_kept (by decide))
  | travelTimeout dt => exact KeepsSections.travelTimeout dt
  | contactFaultTimeout dt => exact KeepsSections.contactFaultTimeout dt
  | lockoutLowerTimer dt => exact .of_event (fun _ => rfl) (.guarded (.of_sections fun _ => by exact handCommand_kept _ _ .sections (by decide)) _)
  | keyInputChange dt => exact .of_event (fun _ => rfl) (.of_sections fun s => by simp only [plain]; split <;> rfl)
  | dciHotSample dt out mA => exact .of_event (fun _ => rfl) (.guarded (.of_sections fun _ => by exact dciResult_kept _ _ _ .sections (by decide)) _)
  | dciColdTest dt => exact .of_event (fun _ => rfl) (.guarded (.of_sections fun _ => rfl) _)
  | dciTestSample dt mA0 mA1 => exact .of_event (fun _ => rfl) (.of_sections fun s => by simp only [plain]; split <;> [rfl; split <;> rfl])
  | carrierStart dt line => exact .of_event (fun _ => rfl) (.of_kept (mapLine_kept _ line) (by decide))
  | endOfCarrier dt line => exact .of_event (fun _ => rfl) (.of_kept (mapLine_kept _ line) (by decide))
  | idleGapEnd dt => exact KeepsSections.idleGapEnd dt
  | holdoffEnd dt => exact .of_event (fun _ => rfl) (.of_kept contend_kept (by decide))
  | readbackMismatch dt line carrierRemains => exact .of_event (fun _ => rfl) (.guarded (.of_sections fun s => by cases line <;> rfl) _)
  | frameAttemptEnd dt => exact KeepsSections.frameAttemptEnd dt
  | statusPeriodExpiry dt => exact .of_event (fun _ => rfl) (.guarded (.of_kept queueStatus_kept (by decide)) _)
  | statusHoldbackEnd dt => exact .of_event (fun _ => rfl) (.guarded (.of_kept queueStatus_kept (by decide)) _)
  | frameReceived dt line bytes => exact .of_event (fun _ => rfl) (.guarded (.of_kept (receive_kept line bytes) (by decide)) _)
  | copyFilterEntryExpiry dt => exact .of_event (fun _ => rfl) (.guarded (.of_sections fun _ => rfl) _)
  | lineSilence dt line => exact .of_event (fun _ => rfl) (.guarded (.of_kept (lineFails_kept line) (by decide)) _)
  | strikeTaken dt => exact KeepsSections.strikeTaken dt
  | statusTaken dt => exact KeepsSections.statusTaken dt
  | hailTaken dt => exact KeepsSections.hailTaken dt
  | answerTaken dt => exact KeepsSections.answerTaken dt
  | resetOrderTaken dt => exact KeepsSections.resetOrderTaken dt
  | hailTimer dt => exact .of_event (fun _ => rfl) (.guarded (.of_sections fun _ => by exact request_kept _ _ .sections (by decide)) _)
  | joinWindowEnd dt => exact KeepsSections.joinWindowEnd dt
  | peerAgeTimeout dt station => exact .of_event (fun _ => rfl) (.guarded (.plain fun s h => setPeerState_sectionLaw h _ _) _)
  | agreementToleranceReached dt station => exact .of_event (fun _ => rfl) (.guarded (.of_sections fun _ => by exact raiseCond_sections _ _) _)
  | infoConditionExpiry dt cond => exact .of_event (fun _ => rfl) (.guarded (.of_sections fun _ => by exact clearCond_sections _ _) _)
  | indicationDue dt => exact .of_event (fun _ => rfl) (.guarded (.of_sections fun _ => rfl) _)
  | noticeSpacingEnd dt => exact .of_event (fun _ => rfl) (.of_kept transmit_kept (by decide))
  | signallerFrameEnd dt => exact KeepsSections.signallerFrameEnd dt
  | ack dt bytes => exact KeepsSections.ack dt bytes
  | query dt bytes => exact KeepsSections.query dt bytes
  | signallerByteTimeout dt bytes => exact .of_event (fun _ => rfl) (.of_sections fun s => by simp only [plain]; split <;> rfl)
  | signallerFrameMalformed dt bytes => exact .of_event (fun _ => rfl) (.of_sections fun s => by simp only [plain]; split <;> rfl)
  | showPeers dt => exact .of_event (fun _ => rfl) .answered
  | showSections dt => exact .of_event (fun _ => rfl) .answered
  | showDetection dt => exact .of_event (fun _ => rfl) (.takeCommand fun _ h => h.of_sections rfl)
  | showNotices dt => exact .of_event (fun _ => rfl) .answered
  | showFirstFault dt => exact .of_event (fun _ => rfl) .answered
  | readLatches dt => exact .of_event (fun _ => rfl) (.takeCommand fun _ h => h.of_sections rfl)
  | readMismatches dt => exact .of_event (fun _ => rfl) (.takeCommand fun _ h => h.of_sections rfl)
  | calibrate dt dp => exact .of_event (fun _ => rfl) (.takeCommand fun _ h => calibrateAct_sectionLaw h _)
  | resetSection dt sec kind => exact .of_event (fun _ => rfl) (.takeCommand fun _ h => resetAct_sectionLaw h _ _)
  | clearFirstFault dt => exact .of_event (fun _ => rfl) (.takeCommand fun _ h => h.of_sections rfl)
  | restart dt => exact .of_event (fun _ => rfl) .answered
  | unknownCommand dt bytes => exact .of_event (fun _ => rfl) (.guarded .answered _)
  | commandWhileBusy dt bytes => exact .of_event (fun _ => rfl) (.guarded (.of_kept busyPort_kept (by decide)) _)
  | commandTimeout dt bytes => exact .of_event (fun _ => rfl) (.of_sections fun s => by simp only [plain]; split <;> rfl)

/-- Settles O11: every record operation keeps a record lawful, so the work of every command and the handling of its signals keep the table lawful. -/
theorem everyStepKeepsTheSectionLaw : Obligations.EveryStepKeepsTheSectionLaw := by
  unfold Obligations.EveryStepKeepsTheSectionLaw
  intro s t hs hstep
  unfold step at hstep
  split at hstep
  · cases hstep
    exact hs
  next c rest hpending =>
    obtain ⟨u, hu, hl⟩ := keepsSections c { s with pending := rest } (hs.of_sections rfl)
    cases hu.symm.trans hstep
    exact hl

end Sys2Proof.Machine
end

section
/-! ## What axles and counts do to the records (R43, R45 to R50, R55 to R57) -/

namespace Sys2Proof.Machine

/-- Settles O27, for each of the two tracks. -/
theorem axlesMoveBetweenTheTwoSides : Obligations.AxlesMoveBetweenTheTwoSides := by
  unfold Obligations.AxlesMoveBetweenTheTwoSides
  intro k hk
  have htrack : k = 0 ∨ k = 1 := by omega
  rcases htrack with rfl | rfl <;> decide

/-! ### Counts at a record by its state -/

section

variable {minSweep : Nat} {usable : Bool} {m : Moves} {r : Sect}

/-- Beyond a bound the balance stays at it and the record is DISTURBED (R49). -/
theorem Sect.count_beyond {st : SectState} (he : r.effective = some st) (hm : 0 < m.far + m.near + m.outs) :
    (4095 < r.balance + m.far + m.near → (r.count minSweep usable m).state = .disturbed ∧ (r.count minSweep usable m).balance = 4095)
      ∧ (r.balance + m.far + m.near ≤ 4095 → r.balance + m.far + m.near < m.outs →
          (r.count minSweep usable m).state = .disturbed ∧ (r.count minSweep usable m).balance = 0) := by
  refine ⟨fun h => ?_, fun hhi h => ?_⟩
  · rw [Sect.count_over he hm h]
    exact ⟨r.disturb_state, rfl⟩
  · rw [Sect.count_under he hm hhi h]
    exact ⟨r.disturb_state, rfl⟩

theorem Sect.disturb_underlying (h : r.state ≠ .disturbed) : r.disturb.underlying = none := by rw [Sect.disturb, if_neg h]

/-- A CLEAR or OCCUPIED record within the bounds: OCCUPIED above balance 0, and emptied to CLEAR at it (R50). -/
theorem Sect.count_tracked (hs : r.state = .clear ∨ r.state = .occupied) (hm : 0 < m.far + m.near + m.outs)
    (hhi : r.balance + m.far + m.near ≤ 4095) (hlo : m.outs ≤ r.balance + m.far + m.near) :
    r.count minSweep usable m =
      if r.balance + m.far + m.near - m.outs = 0 then Sect.emptied { r with balance := r.balance + m.far + m.near - m.outs, state := .clear }
      else { r with balance := r.balance + m.far + m.near - m.outs, state := .occupied,
                    tag := if r.isApproach then tagAfter r.tag (0 < m.far) (0 < m.near) else none } := by
  have he : r.effective = some r.state := by rcases hs with h | h <;> simp [Sect.effective, h]
  have hr : r.state ≠ .restoring := by rcases hs with h | h <;> simp [h]
  have hu : r.state ≠ .unknown := by rcases hs with h | h <;> simp [h]
  rw [Sect.count_tracking he hm hhi hlo hr]
  simp only [Sect.withEffective, hu, if_false]

/-- An UNKNOWN record whose underlying state is CLEAR or OCCUPIED moves that state within the bounds (R55). -/
theorem Sect.count_underlying {u : SectState} (hs : r.state = .unknown) (hu : r.underlying = some u) (hne : u ≠ .restoring)
    (hm : 0 < m.far + m.near + m.outs) (hhi : r.balance + m.far + m.near ≤ 4095) (hlo : m.outs ≤ r.balance + m.far + m.near) :
    r.count minSweep usable m =
      if r.balance + m.far + m.near - m.outs = 0 then
        Sect.emptied { r with balance := r.balance + m.far + m.near - m.outs, underlying := some .clear }
      else { r with balance := r.balance + m.far + m.near - m.outs, underlying := some .occupied,
                    tag := if r.isApproach then tagAfter r.tag (0 < m.far) (0 < m.near) else none } := by
  have he : r.effective = some u := by simp [Sect.effective, hs, hu]
  rw [Sect.count_tracking he hm hhi hlo hne]
  simp only [Sect.withEffective, hs, if_true]

/-- A RESTORING record within the bounds: its sweep completes only at an out-count that brings it to 0 with the minimum reached and both DPs usable
(R57). -/
theorem Sect.count_sweep (hs : r.state = .restoring) (hm : 0 < m.far + m.near + m.outs) (hhi : r.balance + m.far + m.near ≤ 4095)
    (hlo : m.outs ≤ r.balance + m.far + m.near) :
    r.count minSweep usable m =
      if r.balance + m.far + m.near - m.outs = 0 ∧ 0 < m.outs ∧ minSweep ≤ r.sweepAxles + m.far + m.near ∧ usable = true then
        Sect.emptied { r with balance := r.balance + m.far + m.near - m.outs, state := .clear }
      else { r with balance := r.balance + m.far + m.near - m.outs, sweepAxles := min (r.sweepAxles + m.far + m.near) minSweep } := by
  have he : r.effective = some .restoring := by simp [Sect.effective, hs]
  rw [Sect.count_restoring he hm hhi hlo]
  simp [Sect.withEffective, hs]

/-- An UNKNOWN record with RESTORING underlying counts on and completes no sweep (R55, R57). -/
theorem Sect.count_sweepUnderlying (hs : r.state = .unknown) (hu : r.underlying = some .restoring) (hm : 0 < m.far + m.near + m.outs)
    (hhi : r.balance + m.far + m.near ≤ 4095) (hlo : m.outs ≤ r.balance + m.far + m.near) :
    r.count minSweep usable m =
      { r with balance := r.balance + m.far + m.near - m.outs, sweepAxles := min (r.sweepAxles + m.far + m.near) minSweep } := by
  have he : r.effective = some .restoring := by simp [Sect.effective, hs, hu]
  rw [Sect.count_restoring he hm hhi hlo]
  simp [hs]

theorem Sect.count_id (minSweep : Nat) (usable : Bool) (m : Moves) (r : Sect) : (r.count minSweep usable m).id = r.id := by
  have hw (st : SectState) (b : Nat) : (Sect.withEffective { r with balance := b } st).id = r.id := (Sect.withEffective_same _ st).1
  unfold Sect.count
  split
  · rfl
  next st _ =>
    cases st <;> simp only [apply_ite Sect.id, Sect.emptied, hw, Sect.disturb_id, ite_self]

end

/-! ### A frame of one DP at a record (R45, R47, R48) -/

section

variable {now : Time} {minSweep : Nat} {usable : Bool}

theorem Sect.earlierDeadline_id (c : Time) (r : Sect) : (r.earlierDeadline c).id = r.id := by
  unfold Sect.earlierDeadline
  split
  · rfl
  · split <;> rfl

theorem Sect.applyMoves_id (m : Moves) (r : Sect) : (r.applyMoves now minSweep usable m).id = r.id := by
  unfold Sect.applyMoves
  simp only [apply_ite Sect.id, Sect.earlierDeadline_id, Sect.count_id, ite_self]

/-- No axles change nothing. -/
theorem Sect.applyMoves_none (r : Sect) : r.applyMoves now minSweep usable Moves.none = r := by
  have hany : Moves.none.any = false := rfl
  simp only [Sect.applyMoves, Sect.count_none, hany, Bool.false_eq_true, and_false, if_false]
  exact if_neg fun h => h.2.2 h.2.1

/-- A first hearing sets the baseline alone (R47). -/
theorem Sect.applyFrame_first {d : Nat} {c : Counts} {r : Sect} (h : r.base d = none) :
    r.applyFrame now minSweep usable [{ dp := d, counts := c }] = r.setBase d (some c) := by
  have hj : judgeCounts (r.base d) c = .first := by rw [h]; rfl
  simp [Sect.applyFrame, frameMoves, hj, Sect.applyMoves_none]

/-- Whatever a frame's counts of one DP come to, the record's baseline for it is then the frame's, and the record is the same section's (R45). -/
theorem Sect.applyFrame_base (d : Nat) (c : Counts) (r : Sect) :
    (r.applyFrame now minSweep usable [{ dp := d, counts := c }]).base d = some c
      ∧ (r.applyFrame now minSweep usable [{ dp := d, counts := c }]).id = r.id := by
  cases hj : judgeCounts (r.base d) c with
  | first =>
    have hb : r.base d = none := by
      unfold judgeCounts at hj
      split at hj
      · assumption
      · split at hj
        · cases hj
        · split at hj <;> cases hj
    rw [Sect.applyFrame_first hb]
    exact ⟨Sect.base_setBase _ _ _, Sect.setBase_id _ _ _⟩
  | newEpoch =>
    rw [Sect.applyFrame_newEpoch hj]
    exact ⟨Sect.base_setBase _ _ _, (Sect.setBase_id _ _ _).trans r.forget_id⟩
  | implausible =>
    rw [Sect.applyFrame_implausible hj]
    exact ⟨Sect.base_setBase _ _ _, (Sect.setBase_id _ _ _).trans r.disturb_id⟩
  | axles i o =>
    rw [Sect.applyFrame_axles hj]
    exact ⟨Sect.base_setBase _ _ _, (Sect.setBase_id _ _ _).trans (r.applyMoves_id _)⟩

end

/-! ### The statement, in its four parts -/

/-- Counts at a CLEAR or OCCUPIED record (R46, R49, R50). -/
theorem Sect.count_of_tracked {minSweep : Nat} {usable : Bool} {m : Moves} {r q : Sect} (hq : q = r.count minSweep usable m)
    (hs : r.state = .clear ∨ r.state = .occupied) (hm : 0 < m.far + m.near + m.outs) (hhi : r.balance + m.far + m.near ≤ 4095) :
    (m.outs < r.balance + m.far + m.near → q.state = .occupied ∧ q.balance + m.outs = r.balance + m.far + m.near ∧ q.deadline = r.deadline)
      ∧ (m.outs = r.balance + m.far + m.near → q.state = .clear ∧ q.balance = 0 ∧ q.tag = none ∧ q.deadline = none ∧ q.t0 = none
          ∧ q.strikes = 0 ∧ q.held = false) := by
  refine ⟨fun hlo => ?_, fun hlo => ?_⟩
  · rw [Sect.count_tracked hs hm hhi hlo.le, if_neg (by omega)] at hq
    subst hq
    exact ⟨rfl, Nat.sub_add_cancel hlo.le, rfl⟩
  · rw [Sect.count_tracked hs hm hhi hlo.le, if_pos (by omega)] at hq
    subst hq
    exact ⟨rfl, show r.balance + m.far + m.near - m.outs = 0 by omega, rfl, rfl, rfl, rfl, rfl⟩

/-- Counts within the bounds at a RESTORING record and at one with that state underlying (R55, R57). -/
theorem Sect.count_of_restoring {minSweep : Nat} {usable : Bool} {m : Moves} {r q : Sect} (hq : q = r.count minSweep usable m)
    (hm : 0 < m.far + m.near + m.outs) (hhi : r.balance + m.far + m.near ≤ 4095) (hlo : m.outs ≤ r.balance + m.far + m.near) :
    (r.state = .restoring → q.balance + m.outs = r.balance + m.far + m.near
        ∧ (q.balance = 0 → 0 < m.outs → minSweep ≤ r.sweepAxles + m.far + m.near → usable = true →
            q.state = .clear ∧ q.sweepAxles = 0 ∧ q.t0 = none ∧ q.strikes = 0)
        ∧ (q.balance ≠ 0 ∨ m.outs = 0 ∨ r.sweepAxles + m.far + m.near < minSweep ∨ usable = false →
            q.state = .restoring ∧ q.sweepAxles = min (r.sweepAxles + m.far + m.near) minSweep ∧ q.tag = r.tag ∧ q.deadline = r.deadline))
      ∧ (r.state = .unknown → r.underlying = some .restoring → q.state = .unknown ∧ q.underlying = some .restoring
          ∧ q.balance + m.outs = r.balance + m.far + m.near ∧ q.sweepAxles = min (r.sweepAxles + m.far + m.near) minSweep) := by
  refine ⟨fun hs => ?_, fun hs hu => ?_⟩
  · rw [Sect.count_sweep hs hm hhi hlo] at hq
    split at hq
    next hdone =>
      obtain ⟨hz, ho, hmin, hus⟩ := hdone
      subst hq
      refine ⟨Nat.sub_add_cancel hlo, fun _ _ _ _ => ⟨rfl, rfl, rfl, rfl⟩, fun hopen => ?_⟩
      rcases hopen with h | h | h | h
      · exact absurd hz h
      · omega
      · omega
      · exact absurd (hus.symm.trans h) (by decide)
    next hopen =>
      subst hq
      exact ⟨Nat.sub_add_cancel hlo, fun hz ho hmin hus => absurd ⟨hz, ho, hmin, hus⟩ hopen, fun _ => ⟨hs, rfl, rfl, rfl⟩⟩
  · rw [Sect.count_sweepUnderlying hs hu hm hhi hlo] at hq
    subst hq
    exact ⟨hs, hu, Nat.sub_add_cancel hlo, rfl⟩

/-- Counts within the bounds at an UNKNOWN record with CLEAR or OCCUPIED underlying (R55). -/
theorem Sect.count_of_unknown {minSweep : Nat} {usable : Bool} {m : Moves} {r q : Sect} (hq : q = r.count minSweep usable m)
    (hm : 0 < m.far + m.near + m.outs) (hhi : r.balance + m.far + m.near ≤ 4095) (hlo : m.outs ≤ r.balance + m.far + m.near)
    (hs : r.state = .unknown) (hu : r.underlying = some .clear ∨ r.underlying = some .occupied) :
    q.state = .unknown ∧ q.underlying = some (if q.balance = 0 then .clear else .occupied) ∧ q.balance + m.outs = r.balance + m.far + m.near
      ∧ (q.balance = 0 → q.tag = none ∧ q.deadline = none ∧ q.t0 = none ∧ q.strikes = 0) := by
  obtain ⟨u, hu, hne⟩ : ∃ u, r.underlying = some u ∧ u ≠ .restoring := by rcases hu with h | h <;> exact ⟨_, h, by decide⟩
  rw [Sect.count_underlying hs hu hne hm hhi hlo] at hq
  split at hq
  next hz =>
    subst hq
    exact ⟨hs, congrArg some (if_pos hz).symm, Nat.sub_add_cancel hlo, fun _ => ⟨rfl, rfl, rfl, rfl⟩⟩
  next hz =>
    subst hq
    exact ⟨hs, congrArg some (if_neg hz).symm, Nat.sub_add_cancel hlo, fun h => absurd h hz⟩

/-- Counts beyond a bound at a RESTORING record, or an UNKNOWN one with an underlying state (R49). -/
theorem Sect.count_of_beyond {minSweep : Nat} {usable : Bool} {m : Moves} {r q : Sect} (hq : q = r.count minSweep usable m)
    (hm : 0 < m.far + m.near + m.outs) (hs : r.state = .restoring ∨ (r.state = .unknown ∧ r.underlying.isSome = true)) :
    (4095 < r.balance + m.far + m.near → q.state = .disturbed ∧ q.balance = 4095 ∧ q.underlying = none)
      ∧ (r.balance + m.far + m.near ≤ 4095 → r.balance + m.far + m.near < m.outs → q.state = .disturbed ∧ q.balance = 0 ∧ q.underlying = none) := by
  obtain ⟨st, he⟩ : ∃ st, r.effective = some st := by
    rcases hs with h | ⟨h, hu⟩
    · exact ⟨.restoring, by simp [Sect.effective, h]⟩
    · obtain ⟨u, hu⟩ := Option.isSome_iff_exists.mp hu
      exact ⟨u, by simp [Sect.effective, h, hu]⟩
  have hd : r.state ≠ .disturbed := by rcases hs with h | ⟨h, -⟩ <;> simp [h]
  subst hq
  refine ⟨fun h => ?_, fun hhi h => ?_⟩
  · rw [Sect.count_over he hm h]
    exact ⟨r.disturb_state, rfl, Sect.disturb_underlying hd⟩
  · rw [Sect.count_under he hm hhi h]
    exact ⟨r.disturb_state, rfl, Sect.disturb_underlying hd⟩

theorem Sect.forget_of_disturbed {r : Sect} (h : r.state = .disturbed) : r.forget = r := by rw [Sect.forget, if_pos h]

theorem Sect.forget_awaited {r : Sect} (h : r.state ≠ .disturbed) : r.forget.awaited = [] := by rw [Sect.forget, if_neg h]

/-- A frame of one DP with another epoch, or with an implausible difference, is no count (R47, R48). -/
theorem Sect.applyFrame_uncounted {now : Time} {minSweep : Nat} {usable : Bool} {d : Nat} {new c : Counts} {r q : Sect}
    (hq : q = r.applyFrame now minSweep usable [{ dp := d, counts := new }]) (hb : r.base d = some c) :
    (c.epoch ≠ new.epoch → q.state = (if r.state = .disturbed then .disturbed else .unknown)
        ∧ (r.state ≠ .disturbed → q.underlying = none ∧ q.awaited = []) ∧ q.balance = r.balance)
      ∧ (c.epoch = new.epoch → 1000 < (new.inn - c.inn).toNat ∨ 1000 < (new.out - c.out).toNat → q.state = .disturbed ∧ q.balance = r.balance) := by
  refine ⟨fun he => ?_, fun he hbig => ?_⟩
  · have hj : judgeCounts (r.base d) new = .newEpoch := by simp [judgeCounts, hb, he]
    rw [Sect.applyFrame_newEpoch hj] at hq
    subst hq
    refine ⟨?_, fun hd => ⟨?_, ?_⟩, (Sect.setBase_balance _ _ _).trans r.forget_balance⟩
    · rw [Sect.setBase_state]
      split
      next hd => rw [Sect.forget_of_disturbed hd]; exact hd
      next hd => exact Sect.forget_state hd
    · exact (Sect.setBase_underlying _ _ _).trans (Sect.forget_underlying hd)
    · have ha : ∀ x : Sect, (x.setBase d (some new)).awaited = x.awaited := fun x => by rcases x.setBase_cases d (some new) with h | h <;> rw [h]
      exact (ha _).trans (Sect.forget_awaited hd)
  · have hj : judgeCounts (r.base d) new = .implausible := by
      simp only [judgeCounts, hb, he, ne_eq, not_true_eq_false, if_false, if_pos hbig]
    rw [Sect.applyFrame_implausible hj] at hq
    subst hq
    exact ⟨(Sect.setBase_state _ _ _).trans r.disturb_state, (Sect.setBase_balance _ _ _).trans r.disturb_balance⟩

/-- The only-earlier test leaves the earlier of the two times (R31). -/
theorem Sect.earlierDeadline_eq (c : Time) (r : Sect) :
    r.earlierDeadline c = { r with deadline := some (r.deadline.elim c fun d => if earlier c d then c else d) } := by
  unfold Sect.earlierDeadline
  split
  next hd => rw [hd]; rfl
  next d hd =>
    split
    next he => simp [hd, he]
    next he =>
      obtain ⟨⟩ := r
      simp_all

/-- The record that the return of its last awaited owner leaves, its deadline aside (R56). -/
def Sect.returned (u : SectState) (r : Sect) : Sect := { r with state := u, underlying := none, awaited := [] }

/-- The return of the last awaited owner: the underlying state again, with a deadline where the record is approaching (R56). -/
theorem Sect.returnOwner_last {now : Time} {n : Nat} {r : Sect} {u : SectState} (hs : r.state = .unknown) (hu : r.underlying = some u)
    (haw : ∀ x ∈ r.awaited, x = n) :
    r.returnOwner now n = if (r.returned u).approaching then
      { r.returned u with deadline := some (r.deadline.elim now fun d => if earlier now d then now else d) } else r.returned u := by
  have hnone : r.awaited.filter (· ≠ n) = [] := List.filter_eq_nil_iff.mpr fun x hx => by simpa using haw x hx
  have hret : r.returnOwner now n = if (r.returned u).approaching then (r.returned u).earlierDeadline now else r.returned u := by
    simp only [Sect.returnOwner, hs, hu, hnone, if_true]
    rfl
  rw [hret, Sect.earlierDeadline_eq]
  rfl

/-- Settles O28 by the equations of `Sect.count`, `Sect.applyFrame` and `Sect.returnOwner`. -/
theorem countsMoveTheBalance : Obligations.CountsMoveTheBalance := by
  unfold Obligations.CountsMoveTheBalance
  refine ⟨fun minSweep usable m r hs hm => ?_, fun minSweep usable m r q hq hm => ⟨Sect.count_of_beyond hq hm, fun hhi hlo => ?_, fun hs => ?_⟩,
    fun now minSweep usable d r q hq => ?_, fun now n r u hs hu haw => ?_⟩
  · have he : r.effective = some r.state := by rcases hs with h | h <;> simp [Sect.effective, h]
    obtain ⟨hover, hunder⟩ := Sect.count_beyond (minSweep := minSweep) (usable := usable) he hm
    refine ⟨hover, hunder, fun hhi => ?_, fun hhi => ?_⟩
    · exact (Sect.count_of_tracked rfl hs hm hhi).1
    · exact (Sect.count_of_tracked rfl hs hm hhi).2
  · obtain ⟨hrestoring, hbelow⟩ := Sect.count_of_restoring hq hm hhi hlo
    exact ⟨hrestoring, hbelow, Sect.count_of_unknown hq hm hhi hlo⟩
  · have he : r.effective = none := by
      rcases hs with h | ⟨h, hu⟩
      · simp [Sect.effective, h]
      · simp [Sect.effective, h, hu]
    exact hq.trans (Sect.count_untracked he)
  · obtain ⟨hbase, hid⟩ := r.applyFrame_base (now := now) (minSweep := minSweep) (usable := usable) d.dp d.counts
    refine ⟨hq ▸ hbase, hq ▸ hid, fun hb => ?_, fun c hb => ?_, fun c hb => ?_⟩
    · have hfirst := hq.trans (Sect.applyFrame_first hb)
      rcases r.setBase_cases d.dp (some d.counts) with h | h <;> rw [hfirst, h] <;> exact ⟨rfl, rfl, rfl, rfl, rfl⟩
    · exact (Sect.applyFrame_uncounted hq hb).1
    · exact (Sect.applyFrame_uncounted hq hb).2
  · rw [Sect.returnOwner_last hs hu haw]
    split
    next => exact ⟨rfl, rfl, rfl, rfl, rfl, rfl, fun _ hd => by rw [hd]; rfl, fun _ d hd => by rw [hd]; rfl⟩
    next hna => exact ⟨rfl, rfl, rfl, rfl, rfl, rfl, fun ha => absurd ha hna, fun ha => absurd ha hna⟩

end Sys2Proof.Machine
end

section
/-! ## Reset orders, given and received (R60 to R62, R190) -/

namespace Sys2Proof.Machine

/-! ### A frame asked for is under way at the end of the event (R66, R69, R70) -/

theorem LineUnit.Ordered.sublist {u v : LineUnit} (h : u.Ordered) (hq : v.queue.Sublist u.queue) (hn : v.nextOrd = u.nextOrd) : v.Ordered := by
  obtain ⟨hnd, hlt⟩ := h
  refine ⟨hnd.sublist (hq.map _), fun i hi => ?_⟩
  rw [hn]
  exact hlt i (hq.subset hi)

/-- What an admitted request does to the line controller: it takes the place of the frame of its key, or it joins the end of the queue, which may have
lost its oldest SERVICE frame (R69). -/
theorem request_line {w : TxWhat} {s : State} (ha : admits s.join w = true) :
    ((∃ i ∈ s.line.queue, i.what.key = w.key)
        ∧ (request w s).line = (putQueue (s.line.queue.map fun i => if i.what.key = w.key then { i with what := w, seq := none } else i) s).line)
      ∨ ∃ q : List TxItem, q.Sublist s.line.queue ∧ (request w s).line = (enqueue w (putQueue q s)).line := by
  unfold request
  rw [if_pos ha]
  split
  next i hi => exact .inl ⟨⟨i, List.mem_of_find?_eq_some hi, by simpa using List.find?_some hi⟩, rfl⟩
  next =>
    right
    split
    · split
      · exact ⟨s.line.queue, List.Sublist.refl _, rfl⟩
      · exact ⟨_, List.filter_sublist, raiseCond_kept _ _ .line (by decide)⟩
    · exact ⟨s.line.queue, List.Sublist.refl _, rfl⟩

/-- An admitted request of any kind is queued, and the queue stays in order (R69, R70). -/
theorem request_queues {w : TxWhat} {s : State} (ha : admits s.join w = true) (ho : s.line.Ordered) :
    (request w s).line.Ordered ∧ Queued w (request w s) := by
  rcases request_line ha with ⟨⟨i, hi, hkey⟩, hl⟩ | ⟨q, hq, hl⟩
  · have hord : (fun i : TxItem => (if i.what.key = w.key then { i with what := w, seq := none } else i : TxItem).ord) = fun i => i.ord := by
      funext j
      split <;> rfl
    obtain ⟨hnd, hlt⟩ := ho
    unfold Queued LineUnit.Ordered
    rw [hl]
    refine ⟨⟨?_, fun j hj => ?_⟩, _, List.mem_map.2 ⟨i, hi, if_pos hkey⟩, rfl⟩
    · simpa only [putQueue, List.map_map, Function.comp_def, hord] using hnd
    · obtain ⟨k, hk, rfl⟩ := List.mem_map.1 hj
      exact (congrFun hord k).symm ▸ hlt k hk
  · have hput : (putQueue q s).line.Ordered := ho.sublist hq rfl
    unfold Queued
    rw [hl]
    exact ⟨enqueue_ordered hput, _, List.mem_append_right _ (List.mem_singleton.2 rfl), rfl⟩

/-- The body of a reset order needs nothing of the state (R61). -/
theorem buildBody_order (s : State) (sec : Nat) (kind : ResetKind) (key : Bool) :
    buildBody s (.order sec kind key) = some (.service { sec := sec, kind := kind, key := key }) := rfl

section

variable {sec : Nat} {kind : ResetKind} {key : Bool}

/-- An order queued is still under way once an attempt has started: it waits, or the attempt is its own (R66). -/
theorem underway_startAttempt_order {i : TxItem} {s : State} (ho : s.line.Ordered) (hi : i ∈ s.line.queue) (hq : Queued (.order sec kind key) s) :
    underway (startAttempt i s) (.order sec kind key) := by
  obtain ⟨j, hj, hjw⟩ := hq
  by_cases hij : j.ord = i.ord
  · have hji : j = i := List.inj_on_of_nodup_map ho.1 hj hi hij
    subst hji
    obtain ⟨f, hf, hfw⟩ := startAttempt_flight (i := j) (s := s) (hjw ▸ buildBody_order s sec kind key)
    exact .inr ⟨f, hf, hfw.trans hjw⟩
  · refine .inl ⟨j, ?_, hjw⟩
    rw [startAttempt_queue]
    exact List.mem_filter.2 ⟨hj, by simpa using hij⟩

/-- An order queued on an ordered queue. -/
def OrderWaits (sec : Nat) (kind : ResetKind) (key : Bool) (s : State) : Prop := s.line.Ordered ∧ Queued (.order sec kind key) s

theorem OrderWaits.congr {s t : State} (hq : t.line.queue = s.line.queue) (hn : t.line.nextOrd = s.line.nextOrd) (h : OrderWaits sec kind key s) :
    OrderWaits sec kind key t := by
  unfold OrderWaits LineUnit.Ordered Queued
  rwa [hq, hn]

theorem OrderWaits.askStatus {s : State} (h : OrderWaits sec kind key s) : OrderWaits sec kind key (askStatus s) := by
  obtain ⟨ho, hq⟩ := h
  have hqueued : OrderWaits sec kind key (queueStatus s) :=
    ⟨request_ordered (w := .status) (by decide) ho, Queued.request (w := .status) (by decide) (by simp [TxWhat.key]) hq⟩
  unfold Machine.askStatus
  split
  · split
    · split
      · exact hqueued
      · exact ⟨ho, hq⟩
    · exact ⟨ho, hq⟩
  · exact ⟨ho, hq⟩

theorem OrderWaits.contend {s : State} (h : OrderWaits sec kind key s) : underway (contend s) (.order sec kind key) := by
  unfold Machine.contend
  split
  · split
    · exact .inl h.2
    next i hi =>
      split
      · exact underway_startAttempt_order h.1 (chosen_mem hi) h.2
      · exact .inl h.2
  · exact .inl h.2

/-- An order that an event has queued is under way at the event's end, whatever attempt the end of the event starts. -/
theorem OrderWaits.conclude {s0 s1 : State} (h : OrderWaits sec kind key s1) : underway (conclude s0 s1) (.order sec kind key) := by
  unfold Machine.conclude
  extract_lets s2 s3 s4 s5
  have hk2 : KeptBut [.flash, .firstFault, .dci] s1 s2 :=
    (((chooseLeader_kept s1).mono (by decide)).trans ((completeFirstFault_kept s0 _).mono (by decide))).trans ((judgeDcis_kept _).mono (by decide))
  have hl2 : s2.line = s1.line := hk2 .line (by decide)
  have h2 : OrderWaits sec kind key s2 := h.congr (congrArg _ hl2) (congrArg _ hl2)
  have h3 : OrderWaits sec kind key s3 := by
    unfold s3
    split
    · exact h2.askStatus
    · exact h2
  obtain ⟨hq4, -, hn4⟩ := followQuiet_queue s3
  have h4 : OrderWaits sec kind key s4 := h3.congr hq4 hn4
  have h5 : underway s5 (.order sec kind key) := by
    unfold s5
    split
    · obtain ⟨hq5, hf5, -⟩ := followQuiet_queue (Machine.contend s4)
      exact underway_congr hq5 hf5 h4.contend
    · exact .inl h4.2
  have hl : (transmit s5).line = s5.line := transmit_kept s5 .line (by decide)
  exact underway_congr (congrArg _ hl) (congrArg _ hl) h5

theorem OrderWaits.event {dt : Nat} {s : State} {f : State → Work} (hp : s.powered = true) (h : OrderWaits sec kind key (f (advance dt s)).1) :
    underway (event dt s f) (.order sec kind key) := by
  rw [event_eq hp]
  have hl := drain_kept drainFuel ((f (advance dt s)).2 ++ if phaseInputsChanged (advance dt s) (f (advance dt s)).1 then [.evaluate] else [])
    (f (advance dt s)).1 .line (by decide)
  exact (h.congr (congrArg _ hl) (congrArg _ hl)).conclude

end

/-! ### What an order reads and what it leaves (R60 to R62) -/

theorem viewOf_congr {s t : State} (hd : t.dps = s.dps) (hc : t.cfg = s.cfg) (hv : t.view = s.view) (d : Nat) : viewOf t d = viewOf s d := by
  unfold viewOf ownDp
  rw [hd, hc, hv]

theorem latestOf_congr {s t : State} (hd : t.dps = s.dps) (hc : t.cfg = s.cfg) (hv : t.view = s.view) (d : Nat) : latestOf t d = latestOf s d := by
  unfold latestOf
  rw [viewOf_congr hd hc hv]

theorem sectProven_congr {s t : State} (hd : t.dps = s.dps) (hc : t.cfg = s.cfg) (hv : t.view = s.view) (id : Nat) :
    sectProven t id = sectProven s id := by
  unfold sectProven dpProven
  rw [viewOf_congr hd hc hv, viewOf_congr hd hc hv]

/-- The checks of RESET SECTION read the section, the join state, the key and the DP view alone (R60), so time that passes does not change them. -/
theorem resetRefusal_advance (dt : Nat) (s : State) (sec : Nat) (kind : ResetKind) : resetRefusal (advance dt s) sec kind = resetRefusal s sec kind := by
  unfold resetRefusal
  rw [sectProven_congr (s := s) (t := advance dt s) rfl rfl rfl]
  rfl

theorem resetRefusal_none {s : State} {sec : Nat} {kind : ResetKind} {r : Sect} (hr : sectAt s sec = some r) (hj : s.join.state = .joined)
    (hc : r.state ≠ .clear) (ho : r.state ≠ .occupied) (hk : kind = .sweep ∨ (keyActive s = true ∧ sectProven s sec = true)) :
    resetRefusal s sec kind = none := by
  rcases hk with rfl | ⟨hkey, hproven⟩
  · simp [resetRefusal, hr, hj, hc, ho]
  · cases kind <;> simp [resetRefusal, hr, hj, hc, ho, hkey, hproven]

/-- The record that an order leaves, its baselines the latest counts of the DP view (R62). -/
def Sect.ordered (s : State) (kind : ResetKind) (r : Sect) : Sect := r.reset kind (latestOf s (outerDpOf r.id)) (latestOf s (innerDpOf r.id))

/-- An order applied empties the record; in declared lockout this holds of a SWEEP order for a RESTORING one, whose state stays (R62, R190). -/
theorem sectAt_applyReset {s t : State} {sec : Nat} {kind : ResetKind} {r : Sect} (hd : t.dps = s.dps) (hc : t.cfg = s.cfg) (hv : t.view = s.view)
    (hs : t.sections = s.sections) (hr : sectAt s sec = some r) (hl : declaredLockout t = false ∨ (kind = .sweep ∧ r.state = .restoring)) :
    sectAt (applyReset kind sec t) sec = some (r.ordered s kind) := by
  have hid : r.id = sec := sectAt_id hr
  have hrt : sectAt t sec = some r := (sectAt_congr hs sec).trans hr
  unfold applyReset
  rw [sectAt_mapSect (r := r) rfl hrt, latestOf_congr hd hc hv, latestOf_congr hd hc hv, Sect.ordered, hid]
  rcases hl with hl | ⟨rfl, hst⟩
  · rw [hl]
    rfl
  · have hstay : ∀ q : Sect, q.state = .restoring → r.stay q = q := fun q hq => by rw [Sect.stay, if_pos (hq.trans hst.symm)]
    rw [hstay _ rfl, ite_self]

/-! ### The two ways of an order -/

section

variable {dt sec : Nat} {kind : ResetKind} {s : State} {r : Sect}

theorem exec_resetSection (hf : portTaken s = false) (hj : s.join.state ≠ .loading) :
    ∃ f, exec (.resetSection dt sec kind) s = .next (event dt s f) ∧ f (advance dt s) = (resetAct sec kind (advance dt s), []) :=
  ⟨_, rfl, by rw [plain_apply, takeCommand_free (s := advance dt s) hf hj]⟩

theorem exec_resetOrderTaken {a : Accepted} {rest : List Accepted} {b : OrderBody} (h : s.line.accepted = a :: rest) (hb : a.body = .service b) :
    ∃ f, exec (.resetOrderTaken dt) s = .next (event dt s f) ∧ f (advance dt s)
      = (if orderAllowed s b then applyReset b.kind b.sec (dropAccepted (advance dt s)) else dropAccepted (advance dt s), []) := by
  refine ⟨_, rfl, ?_⟩
  have hallowed : orderAllowed (advance dt s) b = orderAllowed s b := by
    unfold orderAllowed
    rw [sectProven_congr (s := s) (t := advance dt s) rfl rfl rfl]
    rfl
  simp only [plain_apply, advance_line, h, hb, hallowed]

/-- The order is applied where its section is neither CLEAR nor OCCUPIED and, for DIRECT, the key is given and the bounding DPs are proven (R61, R190). -/
theorem orderAllowed_of {b : OrderBody} (hr : sectAt s b.sec = some r) (hc : r.state ≠ .clear) (ho : r.state ≠ .occupied)
    (hk : b.kind = .sweep ∨ (b.key = true ∧ sectProven s b.sec = true))
    (hl : declaredLockout s = false ∨ (b.kind = .sweep ∧ r.state = .restoring)) : orderAllowed s b = true := by
  have hst : (r.state == .disturbed || r.state == .unknown || r.state == .restoring) = true := by cases hs : r.state <;> simp_all
  have hlock : (!declaredLockout s || (r.state == .restoring && b.kind == .sweep)) = true := by
    rcases hl with h | ⟨h1, h2⟩
    · simp [h]
    · simp [h1, h2]
  simp only [orderAllowed, hr, Option.any_some, hst, hlock, Bool.true_and]
  rcases hk with h | ⟨h1, h2⟩
  · rw [h]
  · cases b.kind <;> simp [h1, h2]

/-- The record that an order has left is there at the end of the event where no release can be made. -/
theorem sectAt_event_ordered {f : State → Work} {q : Sect} (hp : s.powered = true) (hrel : s.phase.releaseExpired = false)
    (hph : ReleaseShut s → ReleaseShut (f (advance dt s)).1) (hat : sectAt (f (advance dt s)).1 sec = some q) : sectAt (event dt s f) sec = some q :=
  ((sectShut_stable sec q).event hp ⟨hph fun _ => hrel, hat⟩).2

theorem ReleaseShut.applyReset {t : State} (h : ReleaseShut t) : ReleaseShut (applyReset kind sec t) := h.mapSect _ _

end

/-- Settles O48, for an order given (answered DONE and broadcast) and for one received. -/
theorem resetOrderEmptiesTheSection : Obligations.ResetOrderEmptiesTheSection := by
  unfold Obligations.ResetOrderEmptiesTheSection
  intro dt sec kind key c s r hp hr hc ho hk hrel hl hway
  have hid : r.id = sec := sectAt_id hr
  have hstate : (r.ordered s kind).state = if kind = .sweep then .restoring else .clear := by cases kind <;> rfl
  rcases hway with ⟨rfl, hfree, hjoined, rfl⟩ | ⟨rfl, a, rest, hacc, hbody⟩
  · obtain ⟨f, hex, hf⟩ := exec_resetSection (dt := dt) (sec := sec) (kind := kind) hfree (by rw [hjoined]; decide)
    have hact : resetAct sec kind (advance dt s) = request (.order sec kind (keyActive s))
        (applyReset kind sec (putPort (.resetSection sec kind) (some (bare .done)) (advance dt s))) := by
      unfold resetAct
      rw [resetRefusal_advance, resetRefusal_none hr hjoined hc ho hk]
      rfl
    rw [hact] at hf
    have hnd : declaredLockout s = false := by simp [declaredLockout, hjoined]
    have hkept := applyReset_kept kind sec (putPort (.resetSection sec kind) (some (bare .done)) (advance dt s))
    generalize hw : applyReset kind sec (putPort (.resetSection sec kind) (some (bare .done)) (advance dt s)) = w at hf hkept
    have hat : sectAt w sec = some (r.ordered s kind) := hw ▸ sectAt_applyReset rfl rfl rfl rfl hr (.inl hnd)
    have hreq := request_kept (.order sec kind (keyActive s)) w
    refine ⟨_, r.ordered s kind, hex, ?_, rfl, rfl, rfl, rfl, rfl, rfl, rfl, rfl, rfl, by rw [Sect.ordered, hid]; rfl, by rw [Sect.ordered, hid]; rfl,
      hstate, fun _ => ⟨?_, fun hqueue => ?_⟩, fun h => by cases h⟩
    · refine sectAt_event_ordered hp hrel (fun h => ?_) ?_ <;> rw [hf]
      · refine ReleaseShut.congr (hreq .phase (by decide)) (hw ▸ ReleaseShut.applyReset ?_)
        exact h
      · exact (sectAt_congr (hreq .sections (by decide)) sec).trans hat
    · rw [event_port hp, hf, hreq .port (by decide), hkept .port (by decide)]
      rfl
    · obtain ⟨-, -, hnd, hlt, -⟩ := hqueue
      have hline : w.line = s.line := hkept .line (by decide)
      have hadm : admits w.join (.order sec kind (keyActive s)) = true := by
        rw [show w.join = s.join from hkept .join (by decide)]
        simp [admits, hjoined]
      refine OrderWaits.event hp ?_
      rw [hf]
      exact request_queues hadm (hline ▸ ⟨hnd, hlt⟩)
  · obtain ⟨f, hex, hf⟩ := exec_resetOrderTaken (dt := dt) hacc hbody
    rw [orderAllowed_of hr hc ho hk hl, if_pos rfl] at hf
    refine ⟨_, r.ordered s kind, hex, ?_, rfl, rfl, rfl, rfl, rfl, rfl, rfl, rfl, rfl, by rw [Sect.ordered, hid]; rfl, by rw [Sect.ordered, hid]; rfl,
      hstate, fun h => (by cases h), fun _ => ?_⟩
    · refine sectAt_event_ordered hp hrel (fun h => ?_) ?_ <;> rw [hf]
      · exact ReleaseShut.applyReset h
      · exact sectAt_applyReset rfl rfl rfl rfl hr hl
    · have hline := applyReset_kept kind sec (dropAccepted (advance dt s)) .line (by decide)
      rw [event_accepted hp, hf]
      exact congrArg LineUnit.accepted hline

/-- Settles O49: the checks of RESET SECTION in their order, and a received order that may not be applied. -/
theorem resetOrdersAreRefused : Obligations.ResetOrdersAreRefused := by
  unfold Obligations.ResetOrdersAreRefused
  refine ⟨fun dt sec kind s code hp hfree hj hcase => ?_, fun dt s a rest b hp hacc hbody hno => ?_⟩
  · have hrefused : resetRefusal s sec kind = some code := by
      rcases hcase with ⟨hnone, rfl⟩ | ⟨r, hr, hst, rfl⟩ | ⟨r, hr, hjoined, hc, ho, rfl, hwhy⟩
      · simp [resetRefusal, hnone]
      · simp only [resetRefusal, hr]
        split
        · rfl
        next hjoined => rw [if_pos (hst.resolve_left fun h => hjoined h)]
      · rcases hwhy with ⟨hkey, rfl⟩ | ⟨hkey, hproven, rfl⟩
        · simp [resetRefusal, hr, hjoined, hc, ho, hkey]
        · simp [resetRefusal, hr, hjoined, hc, ho, hkey, hproven]
    have hact : resetAct sec kind (advance dt s) = putPort (.resetSection sec kind) (some (bare code)) (advance dt s) := by
      unfold resetAct
      rw [resetRefusal_advance, hrefused]
    exact ⟨_, rfl, event_takeCommand hp hfree hj hact rfl rfl rfl⟩
  · obtain ⟨f, hex, hf⟩ := exec_resetOrderTaken (dt := dt) hacc hbody
    have hnot : orderAllowed s b = false := by
      cases hr : sectAt s b.sec with
      | none => simp [orderAllowed, hr]
      | some r =>
        rcases hno r hr with h | h | ⟨hd, h⟩ | ⟨hlock, h⟩
        · simp [orderAllowed, hr, h]
        · simp [orderAllowed, hr, h]
        · rcases h with h | h <;> simp [orderAllowed, hr, hd, h]
        · cases hk : b.kind <;> simp_all [orderAllowed]
    rw [hnot, if_neg (by decide)] at hf
    exact ⟨_, hex, dropAccepted_eq (s := advance dt s) hacc ▸ event_concluded hp hf rfl rfl rfl⟩

end Sys2Proof.Machine
end

section
/-! ## The release of standing trains (R58, R119 to R121) -/

namespace Sys2Proof.Machine

/-! ### Room in the condition set while results may still be discarded (R148, R174)

The handling of signals raises a condition of an aspect only where it discards the results of a test pulse, and an aspect whose results have been discarded
has none left to discard. -/

/-- The aspect as it stands once the results of its test pulse have been discarded (R148). -/
def AspectRec.discarded (r : AspectRec) : AspectRec := { r with main := r.priorMain, second := r.priorSecond }

/-- Discarding the aspect's results would still move its state. -/
def AspectRec.unsettled (r : AspectRec) : Nat := if r.state = r.discarded.state then 0 else 1

/-- How many aspects a discard would still move. -/
def LightsUnit.unsettled (u : LightsUnit) : Nat := u.a0.unsettled + u.a1.unsettled + u.a2.unsettled

theorem AspectRec.unsettled_le (r : AspectRec) : r.unsettled ≤ 1 := by
  unfold AspectRec.unsettled
  split <;> decide

@[simp] theorem AspectRec.unsettled_discarded (r : AspectRec) : r.discarded.unsettled = 0 := if_pos rfl

theorem AspectRec.drive_unsettled (now : Time) (on : Bool) (r : AspectRec) : (r.drive now on).unsettled = r.unsettled := by
  unfold AspectRec.drive
  split <;> rfl

theorem LightsUnit.unsettled_le (u : LightsUnit) : u.unsettled ≤ 3 := by
  have h0 := u.a0.unsettled_le
  have h1 := u.a1.unsettled_le
  have h2 := u.a2.unsettled_le
  unfold LightsUnit.unsettled
  omega

theorem LightsUnit.driveAll_unsettled (now : Time) (second : Bool) (u : LightsUnit) : (u.driveAll now second AspectRec.drive).unsettled = u.unsettled := by
  simp only [LightsUnit.unsettled, LightsUnit.driveAll, AspectRec.drive_unsettled]

theorem LightsUnit.trimPulse_unsettled (u : LightsUnit) : u.trimPulse.unsettled = u.unsettled := by
  unfold LightsUnit.trimPulse
  split <;> rfl

/-- An aspect's results discarded settle that aspect. -/
theorem LightsUnit.mapAspect_unsettled (u : LightsUnit) (a : Aspect) :
    (u.mapAspect (fun _ => (u.aspect a).discarded) a).unsettled + (u.aspect a).unsettled = u.unsettled := by
  cases a <;> simp [LightsUnit.mapAspect, LightsUnit.aspect, LightsUnit.unsettled] <;> omega

/-- A condition stands, and the set has room for what the handling of signals may still raise outside a release, and for `n` more. -/
structure LampRoom (c : CondId) (n : Nat) (s : State) : Prop where
  other : c.kind ∉ signalKinds
  room : s.conds.length + s.lights.unsettled + (if hasCond s (ownCond s .sequenceError 0) = true then 0 else 1) + n ≤ 31
  stands : hasCond s c = true

theorem LampRoom.of_length {c : CondId} {s : State} (hc : c.kind ∉ signalKinds) (hl : s.conds.length ≤ 27) (hs : hasCond s c = true) :
    LampRoom c 0 s := by
  refine ⟨hc, ?_, hs⟩
  have := s.lights.unsettled_le
  split <;> omega

namespace LampRoom

variable {c : CondId} {n : Nat} {s t : State}

theorem congr (hc : t.conds = s.conds) (hcfg : t.cfg = s.cfg) (hl : t.lights.unsettled ≤ s.lights.unsettled) (h : LampRoom c n s) : LampRoom c n t := by
  obtain ⟨hk, hroom, hs⟩ := h
  have hseq : hasCond t (ownCond t .sequenceError 0) = hasCond s (ownCond s .sequenceError 0) := by rw [ownCond, ownCond, hcfg, hasCond_congr hc]
  refine ⟨hk, ?_, (hasCond_congr hc c).trans hs⟩
  rw [hc, hseq]
  omega

theorem of_kept {l : List Part} (hk : KeptBut l s t) (hl : ∀ p ∈ [Part.conds, .cfg, .lights], p ∉ l) (h : LampRoom c n s) : LampRoom c n t := by
  have hlights : t.lights = s.lights := hk .lights (hl _ (by decide))
  exact h.congr (hk .conds (hl _ (by decide))).1 (hk .cfg (hl _ (by decide))) (by rw [hlights])

/-- A condition of barrier, lamps or sequencer cleared takes no room. -/
theorem clear {k : CondId} (hk : k.kind ∈ signalKinds) (h : LampRoom c n s) : LampRoom c n (clearCond k s) := by
  by_cases hkc : hasCond s k = true
  · obtain ⟨hc, hroom, hs⟩ := h
    have hne : c ≠ k := fun he => hc (he ▸ hk)
    have hlt := length_clearCond_lt hkc
    have hlights : (clearCond k s).lights = s.lights := clearCond_kept k s .lights (by decide)
    refine ⟨hc, ?_, (hasCond_clearCond_other hne s).trans hs⟩
    by_cases hseq : k = ownCond s .sequenceError 0
    · rw [← hseq, hkc] at hroom
      rw [hlights]
      simp only [if_true] at hroom
      split <;> omega
    · have hkeep : hasCond (clearCond k s) (ownCond (clearCond k s) .sequenceError 0) = hasCond s (ownCond s .sequenceError 0) := by
        rw [ownCond, clearCond_cfg]
        exact hasCond_clearCond_other (fun he => hseq he.symm) s
      rw [hlights, hkeep]
      omega
  · rwa [clearCond, if_neg hkc]

/-- A condition raised takes one of the places left over and drops none. -/
theorem raise {k : CondId} (h : LampRoom c (n + 1) s) : LampRoom c n (raiseCond k s) := by
  obtain ⟨hc, hroom, hs⟩ := h
  have hlt : s.conds.length < 31 := by omega
  have hle := length_raiseCond_le k s
  have hlights : (raiseCond k s).lights = s.lights := raiseCond_kept k s .lights (by decide)
  refine ⟨hc, ?_, hasCond_raiseCond_of_hasCond (.inl hlt) hs⟩
  have hkeep (hseq : hasCond s (ownCond s .sequenceError 0) = true) :
      hasCond (raiseCond k s) (ownCond (raiseCond k s) .sequenceError 0) = true := by
    rw [ownCond, raiseCond_cfg]
    exact hasCond_raiseCond_of_hasCond (.inl hlt) hseq
  rw [hlights]
  by_cases hseq : hasCond s (ownCond s .sequenceError 0) = true
  · rw [if_pos hseq] at hroom
    rw [if_pos (hkeep hseq)]
    omega
  · rw [if_neg hseq] at hroom
    split <;> omega

/-- SEQUENCE_ERROR has its place kept. -/
theorem raise_sequenceError (h : LampRoom c n s) : LampRoom c n (raiseCond (ownCond s .sequenceError 0) s) := by
  obtain ⟨hc, hroom, hs⟩ := h
  by_cases hseq : hasCond s (ownCond s .sequenceError 0) = true
  · have hsame : raiseCond (ownCond s .sequenceError 0) s = s := by
      rw [raiseCond, if_pos hseq]
      exact if_neg (show ¬ CondKind.sequenceError.cls = 3 by decide)
    rw [hsame]
    exact ⟨hc, hroom, hs⟩
  · rw [if_neg hseq] at hroom
    have hlt : s.conds.length < 31 := by omega
    have hle := length_raiseCond_le (ownCond s .sequenceError 0) s
    have hlights : (raiseCond (ownCond s .sequenceError 0) s).lights = s.lights := raiseCond_kept _ s .lights (by decide)
    have hnow : hasCond (raiseCond (ownCond s .sequenceError 0) s) (ownCond (raiseCond (ownCond s .sequenceError 0) s) .sequenceError 0) = true := by
      have hown (t : State) (hcfg : t.cfg = s.cfg) : ownCond t .sequenceError 0 = ownCond s .sequenceError 0 := by rw [ownCond, ownCond, hcfg]
      rw [hown _ (raiseCond_cfg _ _)]
      exact hasCond_raiseCond hlt
    refine ⟨hc, ?_, hasCond_raiseCond_of_hasCond (.inl hlt) hs⟩
    rw [hlights, if_pos hnow]
    omega

theorem aspectConds {x y : AspectState} {a : Aspect} (h : LampRoom c (n + 1) s) : LampRoom c n (aspectConds x y a s) := by
  have less {t : State} (ht : LampRoom c (n + 1) t) : LampRoom c n t := by
    obtain ⟨hk, hroom, hs⟩ := ht
    exact ⟨hk, by omega, hs⟩
  unfold Machine.aspectConds
  split
  · exact less h
  · extract_lets s1
    have h1 : LampRoom c (n + 1) s1 := by
      unfold s1
      cases x
      · exact h
      · exact h.clear (by simp [signalKinds])
      · exact h.clear (by simp [signalKinds])
    cases y
    · exact less h1
    · exact h1.raise
    · exact h1.raise

theorem discardResult {a : Aspect} (h : LampRoom c n s) : LampRoom c n (discardResult a s) := by
  obtain ⟨hk, hroom, hs⟩ := h
  have hlights := s.lights.mapAspect_unsettled a
  unfold Machine.discardResult
  extract_lets before after
  have hset : LampRoom c (n + before.unsettled) { s with lights := s.lights.mapAspect (fun _ => after) a } := by
    refine ⟨hk, ?_, hs⟩
    show s.conds.length + (s.lights.mapAspect (fun _ => (s.lights.aspect a).discarded) a).unsettled
      + (if hasCond s (ownCond s .sequenceError 0) = true then 0 else 1) + (n + (s.lights.aspect a).unsettled) ≤ 31
    omega
  by_cases hsame : before.state = after.state
  · have hun : before.unsettled = 0 := if_pos hsame
    unfold Machine.aspectConds
    rw [if_pos hsame]
    rwa [hun] at hset
  · have hun : before.unsettled = 1 := if_neg hsame
    rw [hun] at hset
    exact hset.aspectConds

theorem applyPattern {a : Bool} {r : RedField} (h : LampRoom c n s) : LampRoom c n (applyPattern a r s) := by
  unfold Machine.applyPattern
  extract_lets lights s1
  have h1 : LampRoom c n s1 := by
    unfold s1 Machine.discardResults
    have hdriven : LampRoom c n { s with lights := ({ s.lights with amber := a, red := r }).driveAll s.clock.ms s.flash.second AspectRec.drive } :=
      h.congr (s := s) rfl rfl (LightsUnit.driveAll_unsettled _ _ _).le
    split
    · exact hdriven
    · exact List.foldlRecOn _ _ hdriven fun t ht b _ => SignalStable.ite ht fun _ => ht.discardResult
  exact h1.congr (s := s1) rfl rfl (LightsUnit.trimPulse_unsettled _).le

theorem putBarrier {b : BarrierUnit} (h : LampRoom c n s) : LampRoom c n { s with barrier := b } := h.congr (s := s) rfl rfl le_rfl

theorem putSeq {q : SeqUnit} (h : LampRoom c n s) : LampRoom c n { s with seq := q } := h.congr (s := s) rfl rfl le_rfl

theorem putPhase {u : PhaseUnit} (h : LampRoom c n s) : LampRoom c n { s with phase := u } := h.congr (s := s) rfl rfl le_rfl

theorem countChange {b : Bool} (h : LampRoom c n s) : LampRoom c n (countChange b s) := by
  unfold Machine.countChange
  split
  · exact h.congr (s := s) rfl rfl le_rfl
  · exact h

theorem barrierSettle (h : LampRoom c n s) : LampRoom c n (barrierSettle s).1 := by
  unfold Machine.barrierSettle
  split
  · extract_lets b st s1
    have h1 : LampRoom c n s1 := h.putBarrier
    split
    · exact h1
    · split
      · exact h1.clear (by simp [signalKinds])
      · exact h1
  · exact h

theorem handCommand {k : BarrierCmd} (h : LampRoom c n s) : LampRoom c n (handCommand k s).1 := h.putBarrier.barrierSettle.countChange

theorem handField {f : BarrierField} (h : LampRoom c n s) : LampRoom c n (handField f s).1 := by
  cases f
  · exact h
  all_goals exact h.handCommand

theorem beginStep {i : Nat} {st : StepRec} (h : LampRoom c n s) : LampRoom c n (beginStep i st s).1 := by
  have h1 := (h.putSeq (q := { s.seq with step := some i, stepStart := s.clock.ms, waitStart := none })).applyPattern (a := st.amber) (r := st.red)
  have h2 := h1.handField (f := st.barrier)
  simp only [Machine.beginStep, Work.andThen]
  split
  · exact h2.putSeq
  · exact h2

theorem endRun {how : EndHow} (h : LampRoom c n s) : LampRoom c n (endRun how s).1 := by
  unfold Machine.endRun
  have h1 : LampRoom c n { s with seq := s.seq.ended how } := h.putSeq
  cases how
  · exact h1.clear (by simp [signalKinds])
  · exact h1
  · exact h1
  · exact h1.raise_sequenceError

theorem judgeStep {fuel : Nat} (h : LampRoom c n s) : LampRoom c n (judgeStep fuel s).1 := by
  induction fuel generalizing s with
  | zero => exact h
  | succ m ih =>
    unfold Machine.judgeStep
    repeat' split
    all_goals first
      | exact h
      | exact h.endRun
      | exact h.putSeq
      | exact ih h.beginStep

theorem seqStart {l : ListName} (h : LampRoom c n s) : LampRoom c n (seqStart l s).1 := by
  unfold Machine.seqStart
  split
  · exact h
  · dsimp only
    split
    · exact h.putSeq
    · exact h.putSeq.beginStep.judgeStep

theorem seqStop (h : LampRoom c n s) : LampRoom c n (seqStop s).1 := by
  unfold Machine.seqStop
  split
  · exact h.putSeq.handCommand
  · exact h

theorem seqRequests (h : LampRoom c n s) : LampRoom c n (seqRequests s).1 := by
  unfold Machine.seqRequests
  have hd (l : Option ListName) : LampRoom c n (defer l s) := h.putPhase
  repeat' split
  all_goals first
    | exact h
    | exact hd _
    | exact (hd _).seqStart
    | exact (hd _).seqStop.seqStart

theorem movePhase {p : Phase} (hp : p ≠ .failed) (h : LampRoom c n s) : LampRoom c n (movePhase p s).1 := by
  rw [movePhase_eq hp]
  exact of_kept (judgeDcis_kept _) (by decide) (h.putPhase.countChange.barrierSettle.seqRequests)

end LampRoom

end Sys2Proof.Machine
end

section
namespace Sys2Proof.Machine

/-! ### What a release does to the table and the condition set (R58, R121) -/

/-- The hold of one section: with ids that are each one section's, the record of that id alone is held. -/
theorem releaseOne_sections {s : State} (hn : (s.sections.map (·.id)).Nodup) (id : Nat) :
    (releaseOne s id).sections = s.sections.map fun q => if q.id = id then q.hold else q := by
  have hrel : (releaseOne s id).sections = (mapSect id Sect.hold s).sections := raiseCond_sections _ _
  rw [hrel]
  cases hat : sectAt s id with
  | none =>
    have hno := sectAt_eq_none.mp hat
    rw [mapSect_of_none hat]
    exact ((List.map_congr_left (g := fun q => q) fun q hq => if_neg (hno q hq)).trans (List.map_id' _)).symm
  | some r =>
    rw [mapSect_hold hat]
    refine List.map_congr_left fun q hq => ?_
    have hid : r.id = id := sectAt_id hat
    by_cases hq' : q.id = id
    · rw [if_pos (hq'.trans hid.symm), if_pos hq', List.inj_on_of_nodup_map hn hq (sectAt_mem hat) (hq'.trans hid.symm)]
    · rw [if_neg fun h => hq' (h.trans hid), if_neg hq']

theorem releaseAll_sections (ids : List Nat) {s : State} (hn : (s.sections.map (·.id)).Nodup) :
    (ids.foldl releaseOne s).sections = s.sections.map fun q => if q.id ∈ ids then q.hold else q := by
  induction ids generalizing s with
  | nil => simp
  | cons id rest ih =>
    have hone := releaseOne_sections hn id
    have hids : (releaseOne s id).sections.map (·.id) = s.sections.map (·.id) := by
      rw [hone, List.map_map]
      refine List.map_congr_left fun q _ => ?_
      show (if q.id = id then q.hold else q).id = q.id
      split <;> rfl
    rw [List.foldl_cons, ih (by rw [hids]; exact hn), hone, List.map_map]
    refine List.map_congr_left fun q _ => ?_
    show (if (if q.id = id then q.hold else q).id ∈ rest then _ else _) = _
    by_cases h1 : q.id = id <;> by_cases h2 : q.id ∈ rest <;> simp [h1, h2, Sect.hold]

theorem releaseAll_phase (ids : List Nat) (s : State) : ∃ l, (ids.foldl releaseOne s).phase = { s.phase with heldByRelease := l } := by
  induction ids generalizing s with
  | nil => exact ⟨_, rfl⟩
  | cons id rest ih =>
    obtain ⟨l, hl⟩ := ih (releaseOne s id)
    obtain ⟨k, hk⟩ := mapSect_phaseUnit id Sect.hold s
    have hone : (releaseOne s id).phase = { (mapSect id Sect.hold s).phase with
        heldByRelease := (mapSect id Sect.hold s).phase.heldByRelease ++ [id] } := by
      unfold releaseOne
      dsimp only
      rw [raiseCond_phase]
    exact ⟨l, by rw [List.foldl_cons, hl, hone, hk]⟩

/-- LONG_CLOSURE stands for every section released, where the set has room for them all (R121). -/
theorem releaseAll_conds (ids : List Nat) {s : State} (hl : s.conds.length + ids.length ≤ 31) :
    (ids.foldl releaseOne s).conds.length ≤ s.conds.length + ids.length
      ∧ (∀ c, hasCond s c = true → hasCond (ids.foldl releaseOne s) c = true)
      ∧ ∀ id ∈ ids, hasCond (ids.foldl releaseOne s) (condOf .longClosure id 0) = true := by
  induction ids generalizing s with
  | nil => exact ⟨le_rfl, fun _ h => h, fun _ h => absurd h List.not_mem_nil⟩
  | cons id rest ih =>
    obtain ⟨t, ht, hone⟩ := releaseOne_conds s id
    have hlt : t.conds.length < 31 := by rw [ht]; simp only [List.length_cons] at hl; omega
    have hle : (releaseOne s id).conds.length ≤ s.conds.length + 1 := by rw [hone, ← ht]; exact length_raiseCond_le _ _
    have hkeep (c : CondId) (hc : hasCond s c = true) : hasCond (releaseOne s id) c = true :=
      (hasCond_congr hone c).trans (hasCond_raiseCond_of_hasCond (.inl hlt) ((hasCond_congr ht c).trans hc))
    have hnow : hasCond (releaseOne s id) (condOf .longClosure id 0) = true := (hasCond_congr hone _).trans (hasCond_raiseCond hlt)
    obtain ⟨hlen, hkept, hall⟩ := ih (s := releaseOne s id) (by simp only [List.length_cons] at hl; omega)
    rw [List.foldl_cons]
    refine ⟨by simp only [List.length_cons]; omega, fun c hc => hkept c (hkeep c hc), fun i hi => ?_⟩
    rcases List.mem_cons.mp hi with rfl | hi
    · exact hkept _ hnow
    · exact hall i hi

/-- With ids that are each one section's, a record of the table is the one read at its id. -/
theorem sectAt_of_mem {s : State} {r : Sect} (hn : (s.sections.map (·.id)).Nodup) (hr : r ∈ s.sections) : sectAt s r.id = some r := by
  cases hfind : sectAt s r.id with
  | none => exact absurd rfl (sectAt_eq_none.mp hfind r hr)
  | some q => rw [List.inj_on_of_nodup_map hn (sectAt_mem hfind) hr (sectAt_id hfind)]

/-! ### Demands by the state of a record -/

/-- A standing section is an approaching one, not held, whose deadline is long past (R120). -/
theorem Sect.standing_approaching {now : Time} {warning : Nat} {r : Sect} (h : r.standing now warning = true) : r.approaching = true ∧ r.held = false := by
  simp only [Sect.standing, Bool.and_eq_true, Bool.not_eq_true'] at h
  exact h.1

/-- A held approaching section gives no closing demand, and its deadline is none to wait for (R58, R108, R118). -/
theorem Sect.hold_silent {r : Sect} (h : r.approaching = true) (now : Time) (n : Nat) :
    r.hold.demands now = false ∧ r.hold.deadlineNear now n = false := by
  simp only [Sect.approaching, Bool.and_eq_true, beq_iff_eq] at h
  obtain ⟨⟨ha, hs⟩, -⟩ := h
  have hah : r.hold.isApproach = true := ha
  have hsh : r.hold.state = .occupied := hs
  have hhh : r.hold.held = true := rfl
  constructor
  · rw [Sect.demands, if_pos hah, hsh, hhh]
    simp
  · rw [Sect.deadlineNear, hhh]
    simp

/-- The failure causes read the station and state of each peer, the id and state of each section (R107). -/
theorem failureCauses_congr {s t : State}
    (hp : t.peers.map (fun p => (p.station, p.state)) = s.peers.map (fun p => (p.station, p.state)))
    (hs : t.sections.map (fun r => (r.id, r.state)) = s.sections.map (fun r => (r.id, r.state))) : failureCauses t = failureCauses s := by
  have peers (q : PeerState → Bool) (g : Nat → CondId) : (t.peers.filter fun p => q p.state).map (fun p => g p.station)
      = (s.peers.filter fun p => q p.state).map fun p => g p.station := by
    have view (l : List Peer) : (l.filter fun p => q p.state).map (fun p => g p.station)
        = ((l.map fun p => (p.station, p.state)).filter fun x => q x.2).map fun x => g x.1 := by
      rw [List.filter_map, List.map_map]
      rfl
    rw [view, view, hp]
  have sections (q : SectState → Bool) (g : Nat → CondId) : (t.sections.filter fun r => q r.state).map (fun r => g r.id)
      = (s.sections.filter fun r => q r.state).map fun r => g r.id := by
    have view (l : List Sect) : (l.filter fun r => q r.state).map (fun r => g r.id)
        = ((l.map fun r => (r.id, r.state)).filter fun x => q x.2).map fun x => g x.1 := by
      rw [List.filter_map, List.map_map]
      rfl
    rw [view, view, hs]
  unfold failureCauses
  rw [peers (fun st => st == .mismatched) fun n => condOf .layoutMismatch n 0,
    peers (fun st => st == .unheard || st == .hailing || st == .stale) fun n => condOf .peerLost n 0,
    sections (fun st => st == .unknown) fun i => condOf .sectionUnknown i 0, sections (fun st => st == .disturbed) fun i => condOf .sectionDisturbed i 0]

theorem failureDemand_congr {s t : State} (hj : t.join = s.join)
    (hp : t.peers.map (fun p => (p.station, p.state)) = s.peers.map (fun p => (p.station, p.state)))
    (hs : t.sections.map (fun r => (r.id, r.state)) = s.sections.map (fun r => (r.id, r.state))) : failureDemand t = failureDemand s := by
  rw [failureDemand, failureDemand, hj, failureCauses_congr hp hs]

theorem failureDemand_advance (dt : Nat) (s : State) : failureDemand (advance dt s) = failureDemand s :=
  failureDemand_congr rfl (by rw [advance, List.map_map]; rfl) rfl

/-! ### A crossing that is opening, through the handling of signals -/

/-- Neither failure demand nor closing demand (R107, R108). -/
structure Undemanded (s : State) : Prop where
  failure : failureDemand s = false
  closing : closingDemand s = false

theorem Undemanded.congr {s t : State} (hk : KeptBut movedParts s t) (hs : t.sections = s.sections) (h : Undemanded s) : Undemanded t := by
  have hj : t.join = s.join := hk .join (by decide)
  have hp : t.peers = s.peers := hk .peers (by decide)
  have hc : t.clock = s.clock := hk .clock (by decide)
  exact ⟨(failureDemand_congr hj (by rw [hp]) (by rw [hs])).trans h.failure, by rw [← h.closing, closingDemand, closingDemand, hs, hc]⟩

/-- A state that the handling of signals has reached from another, OPENING or OPEN, with the section table as it was, every condition of a list standing
with room for what the handling may still raise. -/
structure Opens (s : State) (cs : List CondId) (t : State) : Prop where
  kept : KeptBut movedParts s t
  sections : t.sections = s.sections
  phase : t.phase.phase = .opening ∨ t.phase.phase = .opened
  room : ∀ c ∈ cs, LampRoom c 0 t

namespace Opens

variable {s t u : State} {cs : List CondId}

theorem undemanded (h : Opens s cs t) (hd : Undemanded s) : Undemanded t := hd.congr h.kept h.sections

theorem not_closed (h : Opens s cs t) : t.phase.phase ≠ .closed := by rcases h.phase with hp | hp <;> rw [hp] <;> decide

theorem of_movePhase {p : Phase} (hk : KeptBut movedParts s t) (hs : t.sections = s.sections) (hr : ∀ c ∈ cs, LampRoom c 0 t)
    (hp : p = .opening ∨ p = .opened) : Opens s cs (movePhase p t).1 := by
  have hne : p ≠ .failed := by rcases hp with rfl | rfl <;> decide
  obtain ⟨l, hl⟩ := movePhase_phaseUnit hne t
  exact ⟨hk.trans (movePhase_kept p t), (movePhase_sections hne t).trans hs, by rw [hl]; exact hp, fun c hc => (hr c hc).movePhase hne⟩

/-- A change of parts other than the phase unit and the section table. -/
theorem of_kept {l : List Part} (h : Opens s cs t) (hk : KeptBut l t u) (hl : l ⊆ movedParts) (hp : Part.phase ∉ l) (hs : Part.sections ∉ l)
    (hr : ∀ c ∈ cs, LampRoom c 0 t → LampRoom c 0 u) : Opens s cs u := by
  have hph : u.phase = t.phase := hk .phase hp
  exact ⟨h.kept.trans (hk.mono hl), (hk .sections hs).trans h.sections, by rw [hph]; exact h.phase, fun c hc => hr c hc (h.room c hc)⟩

/-- A change of the phase unit that leaves the phase. -/
theorem putPhase {v : PhaseUnit} (h : Opens s cs t) (hp : v.phase = t.phase.phase) : Opens s cs { t with phase := v } :=
  ⟨h.kept.trans (putPhase_kept v t), h.sections, by show v.phase = .opening ∨ v.phase = .opened; rw [hp]; exact h.phase,
    fun c hc => (h.room c hc).putPhase⟩

theorem evaluate (hd : Undemanded s) {n : Nat} (h : Opens s cs t) : Opens s cs (evaluate n t).1 := by
  induction n generalizing t with
  | zero => exact h
  | succ n ih =>
    have hup := releaseUpkeep_open h.not_closed
    have hshut : ReleaseShut t := fun hc => absurd hc h.not_closed
    obtain ⟨hf, hc⟩ := h.undemanded hd
    by_cases hmove : t.phase.phase = .opening ∧ openingsComplete t = true
    · have hact : phaseAct (releaseUpkeep t) = .move .opened := by simp [hup, phaseAct, hmove.1, hf, hc, hmove.2]
      rw [evaluate_moves hshut hact, hup]
      exact ih (of_movePhase h.kept h.sections h.room (.inr rfl))
    · have hact : phaseAct (releaseUpkeep t) = .stay := by
        rw [hup]
        rcases h.phase with hp | hp
        · have hno : openingsComplete t = false := by simpa [hp] using hmove
          simp [phaseAct, hp, hf, hc, hno]
        · simp [phaseAct, hp, hf, hc]
      rw [evaluate_stays hshut hact, hup]
      exact h

theorem seqStart (h : Opens s cs t) (l : ListName) : Opens s cs (seqStart l t).1 :=
  h.of_kept (seqStart_kept l t) (by decide) (by decide) (by decide) fun _ _ hr => hr.seqStart

theorem haltedEnd (hd : Undemanded s) (h : Opens s cs t) : Opens s cs (haltedEnd t).1 := by
  have he : Opens s cs (Machine.evaluate moveFuel { t with phase := { t.phase with haltPending := false } }).1 :=
    (h.putPhase (v := { t.phase with haltPending := false }) rfl).evaluate hd
  simp only [Machine.haltedEnd, Work.andThen]
  split
  · exact he.seqStart _
  · exact he

theorem otherEnd (hd : Undemanded s) (h : Opens s cs t) : Opens s cs (otherEnd t).1 := by
  have he : Opens s cs (Machine.evaluate moveFuel t).1 := h.evaluate hd
  simp only [Machine.otherEnd, Work.andThen]
  repeat' split
  · exact he
  · exact (he.putPhase (v := { (Machine.evaluate moveFuel t).1.phase with deferred := none }) rfl).seqStart _
  · exact he

theorem handleSig (hd : Undemanded s) (h : Opens s cs t) (sig : Sig) : Opens s cs (handleSig sig t).1 := by
  cases sig with
  | evaluate => exact h.evaluate hd
  | judge => exact h.of_kept (judgeStep_kept walkFuel t) (by decide) (by decide) (by decide) fun _ _ hr => hr.judgeStep
  | enteredJoined =>
    have hp : t.phase.phase ≠ .starting := by rcases h.phase with hp | hp <;> rw [hp] <;> decide
    simp only [Machine.handleSig, if_neg hp]
    exact h
  | seqEnded how =>
    have he : Opens s cs (if t.phase.haltPending then Machine.haltedEnd t else Machine.otherEnd t).1 := by
      split
      · exact h.haltedEnd hd
      · exact h.otherEnd hd
    cases how
    · exact h.otherEnd hd
    · exact he
    · exact h.otherEnd hd
    · exact he

theorem drain (hd : Undemanded s) {fuel : Nat} {sigs : List Sig} (h : Opens s cs t) : Opens s cs (drain fuel sigs t) := by
  induction fuel generalizing sigs t with
  | zero => exact h
  | succ n ih =>
    cases sigs with
    | nil => exact h
    | cons sig rest => exact ih (h.handleSig hd sig)

end Opens

/-! ### The release test made (R120) -/

/-- A station whose release test comes out: CLOSED with the mark expired and every island CLEAR, some section demanding and every demanding one
standing. -/
structure ReleaseDue (s : State) : Prop where
  closed : s.phase.phase = .closed
  expired : s.phase.releaseExpired = true
  islands : islandsClear s = true
  demands : ∃ r ∈ s.sections, r.demands s.clock.ms = true
  standing : ∀ r ∈ s.sections, r.demands s.clock.ms = true → r.standing s.clock.ms s.cfg.timing.warningTime = true
  ids : (s.sections.map (·.id)).Nodup

namespace ReleaseDue

variable {s : State} (h : ReleaseDue s)
include h

theorem holds : releaseHolds s = true := by
  obtain ⟨r, hr, hd⟩ := h.demands
  have hne : (demanding s).isEmpty = false := by
    rw [List.isEmpty_eq_false_iff]
    exact List.ne_nil_of_mem (List.mem_filter.mpr ⟨hr, hd⟩)
  have hall : ((demanding s).all fun r => r.standing s.clock.ms s.cfg.timing.warningTime) = true :=
    List.all_eq_true.mpr fun r hr => h.standing r (List.mem_filter.mp hr).1 (List.mem_filter.mp hr).2
  simp [releaseHolds, releaseTested, h.closed, h.expired, h.islands, hne, hall]

omit h in
theorem of_holds (hn : (s.sections.map (·.id)).Nodup) (hh : releaseHolds s = true) : ReleaseDue s := by
  simp only [releaseHolds, releaseTested, Bool.and_eq_true, beq_iff_eq, Bool.not_eq_true', List.isEmpty_eq_false_iff, List.all_eq_true] at hh
  obtain ⟨⟨⟨⟨hclosed, hexp⟩, hislands⟩, hne⟩, hall⟩ := hh
  obtain ⟨r, hr⟩ := List.exists_mem_of_ne_nil _ hne
  exact ⟨hclosed, hexp, hislands, ⟨r, List.mem_filter.mp hr⟩, fun q hq hd => hall q (List.mem_filter.mpr ⟨hq, hd⟩), hn⟩

theorem upkeep : releaseUpkeep s = s := by simp [releaseUpkeep, h.closed, h.islands, h.expired]

/-- Every demanding section is held, every other one is as it was. -/
theorem sections : (makeRelease s).sections = s.sections.map fun q => if q.demands s.clock.ms then q.hold else q := by
  unfold makeRelease
  rw [releaseAll_sections _ h.ids]
  refine List.map_congr_left fun q hq => if_congr ⟨fun hm => ?_, fun hd => ?_⟩ rfl rfl
  · obtain ⟨r, hr, hid⟩ := List.mem_map.mp hm
    obtain ⟨hr, hd⟩ := List.mem_filter.mp hr
    rw [← List.inj_on_of_nodup_map h.ids hr hq hid]
    exact hd
  · exact List.mem_map.mpr ⟨q, List.mem_filter.mpr ⟨hq, hd⟩, rfl⟩

omit h in
theorem phaseUnit (s : State) : ∃ l, (makeRelease s).phase = { s.phase with heldByRelease := l } := releaseAll_phase _ s

/-- The release leaves the state of every section. -/
theorem states : (makeRelease s).sections.map (fun r => (r.id, r.state)) = s.sections.map fun r => (r.id, r.state) := by
  rw [h.sections, List.map_map]
  refine List.map_congr_left fun q _ => ?_
  show ((if q.demands s.clock.ms then q.hold else q).id, (if q.demands s.clock.ms then q.hold else q).state) = _
  split <;> rfl

/-- No section gives closing demand any more. -/
theorem closingDemand_after : closingDemand (makeRelease s) = false := by
  have hclock : (makeRelease s).clock = s.clock := makeRelease_kept s .clock (by decide)
  rw [closingDemand, h.sections, hclock, List.any_map, List.any_eq_false]
  intro q hq
  show ¬ (if q.demands s.clock.ms then q.hold else q).demands s.clock.ms = true
  split
  next hd => simp [(Sect.hold_silent (Sect.standing_approaching (h.standing q hq hd)).1 s.clock.ms 0).1]
  next hd => exact hd

theorem undemanded (hf : failureDemand s = false) : Undemanded (makeRelease s) := by
  have hk := makeRelease_kept s
  have hpeers : (makeRelease s).peers = s.peers := hk .peers (by decide)
  exact ⟨(failureDemand_congr (hk .join (by decide)) (by rw [hpeers]) h.states).trans hf, h.closingDemand_after⟩

theorem islandsAfter : islandsClear (makeRelease s) = true := by
  have hi := h.islands
  simp only [islandsClear, List.all_eq_true] at hi
  rw [islandsClear, h.sections, List.all_map, List.all_eq_true]
  intro q hq
  show ((if q.demands s.clock.ms then q.hold else q).isApproach || (if q.demands s.clock.ms then q.hold else q).state == .clear) = true
  split
  · exact hi q hq
  · exact hi q hq

/-- After the release no test is made again in the event: no section is left that demands (R120). -/
theorem tested_after : releaseUpkeep (makeRelease s) = makeRelease s ∧ releaseTested (makeRelease s) = false := by
  obtain ⟨l, hl⟩ := ReleaseDue.phaseUnit s
  have hc := h.closingDemand_after
  have hnone : demanding (makeRelease s) = [] := by
    rw [closingDemand, List.any_eq_false] at hc
    exact List.filter_eq_nil_iff.mpr hc
  exact ⟨by simp [releaseUpkeep, hl, h.closed, h.islandsAfter, h.expired], by simp [releaseTested, hnone]⟩

/-- What follows the release is what the transition rules find (R106, R120). -/
theorem evaluate_after (hf : failureDemand s = false) (n : Nat) :
    Machine.evaluate (n + 1) (makeRelease s) = if secondTrain (makeRelease s) then (makeRelease s, []) else
      (movePhase .opening (makeRelease s)).andThen (Machine.evaluate n) := by
  obtain ⟨l, hl⟩ := ReleaseDue.phaseUnit s
  obtain ⟨hf', hc⟩ := h.undemanded hf
  obtain ⟨hup, htested⟩ := h.tested_after
  have hnote : noteStanding (makeRelease s) = makeRelease s := if_neg (by simp [htested])
  have hact : phaseAct (makeRelease s) = if secondTrain (makeRelease s) then .stay else .move .opening := by
    simp only [phaseAct, hl, h.closed, hf', hc, Bool.false_eq_true, if_false]
  have hholds : releaseHolds (makeRelease s) = false := by rw [releaseHolds, htested, Bool.false_and]
  rw [Machine.evaluate]
  simp only [hup, hholds, Bool.false_eq_true, if_false, hnote, hact]
  by_cases hst : secondTrain (makeRelease s) = true
  · rw [if_pos hst, if_pos hst]
  · rw [if_neg hst, if_neg hst]

/-- The second-train rule finds no deadline near where none of a section that does not demand is (R118). -/
theorem secondTrain_after (hnear : ∀ r ∈ s.sections, r.demands s.clock.ms = false → r.deadlineNear s.clock.ms s.cfg.timing.minOpen = false) :
    secondTrain (makeRelease s) = false := by
  have hk := makeRelease_kept s
  have hclock : (makeRelease s).clock = s.clock := hk .clock (by decide)
  have hcfg : (makeRelease s).cfg = s.cfg := hk .cfg (by decide)
  rw [secondTrain, h.sections, hclock, hcfg, List.any_map, List.any_eq_false]
  intro q hq
  show ¬ (if q.demands s.clock.ms then q.hold else q).deadlineNear s.clock.ms s.cfg.timing.minOpen = true
  split
  next hd => simp [(Sect.hold_silent (Sect.standing_approaching (h.standing q hq hd)).1 s.clock.ms s.cfg.timing.minOpen).2]
  next hd => simp [hnear q hq (by simpa using hd)]

omit h in
/-- The conditions of the sections released stand after the release with room for the lamps' and the sequencer's (R121, R174). -/
theorem room (hlen : s.sections.length ≤ 6) (hconds : s.conds.length ≤ 20) :
    ∀ c ∈ (demanding s).map (fun r => condOf .longClosure r.id 0), LampRoom c 0 (makeRelease s) := by
  have hcount : ((demanding s).map (·.id)).length ≤ 6 := by
    rw [List.length_map]
    exact (List.length_filter_le _ _).trans hlen
  obtain ⟨hle, -, hall⟩ := releaseAll_conds ((demanding s).map (·.id)) (s := s) (by omega)
  intro c hc
  obtain ⟨r, hr, rfl⟩ := List.mem_map.mp hc
  exact LampRoom.of_length (by simp [signalKinds]) (by unfold makeRelease; omega) (hall r.id (List.mem_map.mpr ⟨r, hr, rfl⟩))

/-- The event of a release that is due: each demanding section held with LONG_CLOSURE standing, and the crossing opening where no deadline is near. -/
theorem drained (hf : failureDemand s = false) (hlen : s.sections.length ≤ 6) (hconds : s.conds.length ≤ 20) (n : Nat) :
    (Machine.drain (n + 1) [.evaluate] s).sections = (makeRelease s).sections
      ∧ (∀ r ∈ demanding s, hasCond (Machine.drain (n + 1) [.evaluate] s) (condOf .longClosure r.id 0) = true)
      ∧ (secondTrain (makeRelease s) = false →
          (Machine.drain (n + 1) [.evaluate] s).phase.phase = .opening ∨ (Machine.drain (n + 1) [.evaluate] s).phase.phase = .opened) := by
  have hroom := ReleaseDue.room hlen hconds
  have hfirst : handleSig .evaluate s = if secondTrain (makeRelease s) then (makeRelease s, []) else
      (movePhase .opening (makeRelease s)).andThen (Machine.evaluate 14) := by
    rw [← h.evaluate_after hf 14]
    show Machine.evaluate (15 + 1) s = _
    rw [Machine.evaluate]
    simp only [h.upkeep, h.holds, if_true]
  rw [drain_cons, List.nil_append, hfirst]
  by_cases hst : secondTrain (makeRelease s) = true
  · rw [if_pos hst]
    refine ⟨by rw [drain_nil], fun r hr => ?_, fun hno => absurd (hst.symm.trans hno) (by decide)⟩
    rw [drain_nil]
    exact (hroom _ (List.mem_map.mpr ⟨r, hr, rfl⟩)).stands
  · rw [if_neg hst]
    have hd := h.undemanded hf
    have hmoved : Opens (makeRelease s) _ (movePhase .opening (makeRelease s)).1 := Opens.of_movePhase (KeptBut.refl _ _) rfl hroom (.inl rfl)
    have hmoves : Opens (makeRelease s) _ ((movePhase .opening (makeRelease s)).andThen (Machine.evaluate 14)).1 := hmoved.evaluate hd
    generalize (movePhase .opening (makeRelease s)).andThen (Machine.evaluate 14) = w at hmoves
    have hend := hmoves.drain hd (fuel := n) (sigs := w.2)
    exact ⟨hend.sections, fun r hr => (hend.room _ (List.mem_map.mpr ⟨r, hr, rfl⟩)).stands, fun _ => hend.phase⟩

end ReleaseDue

/-! ### The two release commands -/

/-- The state with its phase unit replaced. -/
def withPhaseUnit (u : PhaseUnit) (s : State) : State := { s with phase := u }

/-- Either command makes the release test on the state as it stands but for the release timer, the mark and the standing-test times (R119, R120). -/
theorem exec_releaseCommand {dt sec : Nat} {c : Instr} {s : State} {st : Time} (hp : s.powered = true)
    (hc : (c = .releaseTimerExpiry dt ∧ s.phase.releaseStart = some st ∧ s.cfg.timing.maxClosed * 1000 ≤ ((advance dt s).clock.ms - st).toNat)
      ∨ (c = .standingTestTime dt sec ∧ s.phase.releaseExpired = true ∧ (sec, st) ∈ s.phase.standing ∧ reached (advance dt s).clock.ms st = true)) :
    ∃ u : PhaseUnit, u.phase = s.phase.phase ∧ u.releaseExpired = true
      ∧ exec c s = .next (conclude (advance dt s) (drain drainFuel [.evaluate] (withPhaseUnit u (advance dt s)))) := by
  have quiet (f : State → Work) (u : PhaseUnit) (hf : f (advance dt s) = (withPhaseUnit u (advance dt s), [.evaluate])) :
      event dt s f = conclude (advance dt s) (drain drainFuel [.evaluate] (withPhaseUnit u (advance dt s))) := by
    rw [event_eq hp, hf, phaseInputsChanged_same (s0 := advance dt s) (s1 := withPhaseUnit u (advance dt s)) rfl rfl]
    rfl
  rcases hc with ⟨rfl, hstart, hran⟩ | ⟨rfl, hexp, hmem, hreached⟩
  · refine ⟨{ s.phase with releaseStart := none, releaseExpired := true }, rfl, rfl, congrArg _ (quiet _ _ (guarded_apply ?_))⟩
    simp only [releaseExpires, ranFor, advance_phase, hstart, advance_cfg]
    exact decide_eq_true hran
  · refine ⟨{ s.phase with standing := s.phase.standing.filter fun e => e.1 ≠ sec }, rfl, hexp, congrArg _ (quiet _ _ (guarded_apply ?_))⟩
    exact List.any_eq_true.mpr ⟨(sec, st), hmem, by simpa using hreached⟩

/-- Settles O32: the release test comes out, every demanding section is held, and the evaluation that follows at once opens the crossing. -/
theorem standingTrainsAreReleased : Obligations.StandingTrainsAreReleased := by
  unfold Obligations.StandingTrainsAreReleased
  intro dt sec c s st hp hclosed hfail hislands hcmd hdem hstanding hids hlen hconds
  obtain ⟨u, huphase, huexp, hexec⟩ := exec_releaseCommand hp hcmd
  have hfail' : failureDemand (withPhaseUnit u (advance dt s)) = false := (failureDemand_advance dt s).trans hfail
  have hdue : ReleaseDue (withPhaseUnit u (advance dt s)) := ⟨huphase.trans hclosed, huexp, hislands, hdem, hstanding, hids⟩
  obtain ⟨hsect, hcond, hopen⟩ := hdue.drained hfail' hlen hconds 1023
  have hk := conclude_kept (advance dt s) (drain drainFuel [.evaluate] (withPhaseUnit u (advance dt s)))
  refine ⟨_, hexec, fun r hr hd => ⟨r.hold, ?_, rfl, rfl, rfl, rfl, ?_⟩, fun hnear => ?_⟩
  · have hat : sectAt (withPhaseUnit u (advance dt s)) r.id = some r := sectAt_of_mem hids hr
    have hmap := sectAt_map (s := (withPhaseUnit u (advance dt s))) (fun q => by split <;> rfl)
      ((hk .sections (by decide)).trans (hsect.trans hdue.sections)) r.id
    rw [hmap, hat]
    exact congrArg some (if_pos hd)
  · exact (hasCond_congr (hk .conds (by decide)).1 _).trans (hcond r (List.mem_filter.mpr ⟨hr, hd⟩))
  · have hphase := hopen (hdue.secondTrain_after hnear)
    rw [show (conclude _ _).phase = _ from hk .phase (by decide)]
    exact hphase

end Sys2Proof.Machine
end

section
/-! ## The loss of a peer and the failure that follows it (R54, R98, R107, R111, R124) -/

namespace Sys2Proof.Machine

/-! ### Failure demand from a peer (R107) -/

/-- Some peer is STALE. -/
def SomeStale (s : State) : Prop := ∃ p ∈ s.peers, p.state = .stale

theorem SomeStale.congr {s t : State} (hp : t.peers = s.peers) (h : SomeStale s) : SomeStale t := by
  unfold SomeStale
  rw [hp]
  exact h

theorem mem_failureCauses {s : State} {c : CondId} : c ∈ failureCauses s ↔
    (∃ p ∈ s.peers, p.state = .mismatched ∧ condOf .layoutMismatch p.station 0 = c)
      ∨ (∃ p ∈ s.peers, (p.state = .unheard ∨ p.state = .hailing ∨ p.state = .stale) ∧ condOf .peerLost p.station 0 = c)
      ∨ (∃ r ∈ s.sections, r.state = .unknown ∧ condOf .sectionUnknown r.id 0 = c)
      ∨ ∃ r ∈ s.sections, r.state = .disturbed ∧ condOf .sectionDisturbed r.id 0 = c := by
  simp [failureCauses, and_assoc, or_assoc]

/-- A STALE peer is a source of failure demand. -/
theorem SomeStale.failureDemand {s : State} (h : SomeStale s) : failureDemand s = true := by
  obtain ⟨p, hp, hst⟩ := h
  have hc : condOf .peerLost p.station 0 ∈ failureCauses s := mem_failureCauses.mpr (.inr (.inl ⟨p, hp, .inr (.inr hst), rfl⟩))
  have hne : (failureCauses s).isEmpty = false := by
    rw [List.isEmpty_eq_false_iff]
    exact List.ne_nil_of_mem hc
  simp [Machine.failureDemand, hne]

theorem failureCauses_of_no_demand {s : State} (h : failureDemand s = false) : failureCauses s = [] := by
  simp only [failureDemand, Bool.or_eq_false_iff, Bool.not_eq_false', List.isEmpty_iff] at h
  exact h.2

theorem undisturbed_of_no_demand {s : State} (h : failureDemand s = false) : ∀ r ∈ s.sections, r.state ≠ .disturbed := fun r hr hst => by
  have hc := mem_failureCauses.mpr (.inr (.inr (.inr ⟨r, hr, hst, rfl⟩)))
  rw [failureCauses_of_no_demand h] at hc
  cases hc

/-! ### A failed crossing through the handling of signals (R111, R112) -/

/-- A state that the handling of signals has reached from another, FAILED, with the first-fault record as it was. -/
structure Fails (s t : State) : Prop where
  kept : KeptBut movedParts s t
  phase : t.phase.phase = .failed
  firstFault : t.firstFault = s.firstFault

namespace Fails

variable {s t u : State}

/-- A change of parts other than the phase unit and the first-fault record. -/
theorem of_kept {l : List Part} (h : Fails s t) (hk : KeptBut l t u) (hl : l ⊆ movedParts) (hp : Part.phase ∉ l) (hf : Part.firstFault ∉ l) :
    Fails s u := by
  have hph : u.phase = t.phase := hk .phase hp
  exact ⟨h.kept.trans (hk.mono hl), by rw [hph]; exact h.phase, (hk .firstFault hf).trans h.firstFault⟩

/-- A change of the phase unit that leaves the phase. -/
theorem putPhase {v : PhaseUnit} (h : Fails s t) (hp : v.phase = t.phase.phase) : Fails s { t with phase := v } :=
  ⟨h.kept.trans (putPhase_kept v t), hp.trans h.phase, h.firstFault⟩

theorem seqStart (h : Fails s t) (l : ListName) : Fails s (seqStart l t).1 := h.of_kept (seqStart_kept l t) (by decide) (by decide) (by decide)

/-- Under failure demand an evaluation of a FAILED crossing finds nothing to do. -/
theorem evaluate (hd : SomeStale s) (h : Fails s t) (n : Nat) : evaluate n t = (t, []) := by
  have hf : failureDemand t = true := (hd.congr (h.kept .peers (by decide))).failureDemand
  cases n with
  | zero => rfl
  | succ n =>
    have hshut : ReleaseShut t := fun hc => absurd (h.phase.symm.trans hc) (by decide)
    have hup : releaseUpkeep t = t := releaseUpkeep_open (by rw [h.phase]; decide)
    have hstay : phaseAct (releaseUpkeep t) = .stay := by simp [hup, phaseAct, h.phase, hf]
    rw [evaluate_stays hshut hstay, hup]

theorem haltedEnd (hd : SomeStale s) (h : Fails s t) : Fails s (haltedEnd t).1 := by
  have h' : Fails s { t with phase := { t.phase with haltPending := false } } := h.putPhase rfl
  have hp : ¬ (t.phase.phase = .closing ∧ closingDemand { t with phase := { t.phase with haltPending := false } } = true ∧ (!t.seq.active) = true) :=
    fun hc => absurd (h.phase.symm.trans hc.1) (by decide)
  simp only [Machine.haltedEnd, Work.andThen, h'.evaluate hd moveFuel, if_neg hp]
  exact h'

theorem otherEnd (hd : SomeStale s) (h : Fails s t) : Fails s (otherEnd t).1 := by
  simp only [Machine.otherEnd, Work.andThen, h.evaluate hd moveFuel]
  repeat' split
  · exact h
  · exact (h.putPhase (v := { t.phase with deferred := none }) rfl).seqStart _
  · exact h

theorem handleSig (hd : SomeStale s) (h : Fails s t) (sig : Sig) : Fails s (handleSig sig t).1 := by
  cases sig with
  | evaluate =>
    simp only [Machine.handleSig, h.evaluate hd moveFuel]
    exact h
  | judge => exact h.of_kept (judgeStep_kept walkFuel t) (by decide) (by decide) (by decide)
  | enteredJoined =>
    have hp : t.phase.phase ≠ .starting := by rw [h.phase]; decide
    simp only [Machine.handleSig, if_neg hp]
    exact h
  | seqEnded how =>
    have he : Fails s (if t.phase.haltPending then Machine.haltedEnd t else Machine.otherEnd t).1 := by
      split
      · exact h.haltedEnd hd
      · exact h.otherEnd hd
    cases how
    · exact h.otherEnd hd
    · exact he
    · exact h.otherEnd hd
    · exact he

theorem drain (hd : SomeStale s) {fuel : Nat} {sigs : List Sig} (h : Fails s t) : Fails s (drain fuel sigs t) := by
  induction fuel generalizing sigs t with
  | zero => exact h
  | succ n ih =>
    cases sigs with
    | nil => exact h
    | cons sig rest => exact ih (h.handleSig hd sig)

end Fails

/-! ### The move to FAILED (R111, R124) -/

/-- The move to FAILED enters it and fills an empty first-fault record before anything else follows (R124). -/
theorem movePhase_failed (s : State) :
    (movePhase .failed s).1.phase.phase = .failed
      ∧ (movePhase .failed s).1.firstFault = (firstFaultTrigger s.phase.phase (entered .failed s)).firstFault := by
  obtain ⟨w, hw⟩ : ∃ w, firstFaultTrigger s.phase.phase (entered .failed s) = w := ⟨_, rfl⟩
  have hmove : (movePhase .failed s).1 = judgeDcis (seqRequests (barrierSettle w).1).1 := by
    rw [← hw]
    simp only [movePhase, if_true, Work.andThen, judgePassing]
    rfl
  have hwp : w.phase.phase = .failed := by
    rw [← hw]
    unfold firstFaultTrigger
    split <;> rfl
  obtain ⟨l, hl⟩ := seqRequests_phaseUnit (barrierSettle w).1
  constructor
  · rw [hmove, judgeDcis_kept _ .phase (by decide), hl, barrierSettle_kept _ .phase (by decide)]
    exact hwp
  · rw [hw, hmove, judgeDcis_kept _ .firstFault (by decide), seqRequests_kept _ .firstFault (by decide), barrierSettle_kept _ .firstFault (by decide)]

theorem noteStanding_phase (s : State) : (noteStanding s).phase.phase = s.phase.phase := by
  unfold noteStanding
  split
  · refine List.foldlRecOn (motive := fun t : State => t.phase.phase = s.phase.phase) _ _ rfl fun t ht r _ => ?_
    repeat' split
    all_goals exact ht
  · rfl

/-- A release holds sections, raises LONG_CLOSURE for them and keeps their list; it reaches nothing else (R121). -/
theorem makeRelease_kept_few (s : State) : KeptBut [.phase, .conds, .notices, .sections] s (makeRelease s) := by
  refine KeptBut.foldl _ (fun t id => ?_) _ s
  refine KeptBut.trans (t := raiseCond (condOf .longClosure id 0) (mapSect id Sect.hold t)) ?_ ?_
  · exact ((mapSect_kept _ _ _).mono (by decide)).trans ((raiseCond_kept _ _).mono (by decide))
  · intro p hp; cases p <;> first | rfl | exact ⟨rfl, rfl⟩ | exact absurd (by decide) hp

/-- What an evaluation has come to when it moves to FAILED: a release may have been made before, which leaves the state of every section (R106, R120). -/
structure AtFailure (w x : State) : Prop where
  kept : KeptBut [.phase, .conds, .notices, .sections] w x
  phase : x.phase.phase = w.phase.phase
  states : x.sections.map (fun r => (r.id, r.state)) = w.sections.map fun r => (r.id, r.state)

/-- Under failure demand an evaluation of a crossing that has started and has not failed moves to FAILED, at once or after one release. -/
theorem evaluate_fails {w : State} (hd : SomeStale w) (hn : (w.sections.map (·.id)).Nodup) (hs : w.phase.phase ≠ .starting)
    (hf : w.phase.phase ≠ .failed) (k : Nat) :
    ∃ x m, AtFailure w x ∧ evaluate (k + 2) w = (movePhase .failed x).andThen (evaluate m) := by
  have moves {x : State} (hx : SomeStale x) (hxs : x.phase.phase ≠ .starting) (hxf : x.phase.phase ≠ .failed) : phaseAct x = .move .failed := by
    have hdem := hx.failureDemand
    unfold phaseAct
    cases hp : x.phase.phase <;> simp_all
  have hup := releaseUpkeep_kept w
  have hupPhase : (releaseUpkeep w).phase.phase = w.phase.phase := by
    obtain ⟨r, e, l, h, -⟩ := releaseUpkeep_phaseUnit w
    rw [h]
  have hupSect : (releaseUpkeep w).sections = w.sections := hup .sections (by decide)
  by_cases hrel : releaseHolds (releaseUpkeep w) = true
  · have hdue : ReleaseDue (releaseUpkeep w) := ReleaseDue.of_holds (by rw [hupSect]; exact hn) hrel
    obtain ⟨hsame, htested⟩ := hdue.tested_after
    obtain ⟨l, hl⟩ := ReleaseDue.phaseUnit (releaseUpkeep w)
    have hkept : KeptBut [.phase, .conds, .notices, .sections] (releaseUpkeep w) (makeRelease (releaseUpkeep w)) :=
      makeRelease_kept_few _
    refine ⟨makeRelease (releaseUpkeep w), k, ⟨(hup.mono (by decide)).trans hkept, ?_, ?_⟩, ?_⟩
    · rw [hl]
      exact hupPhase
    · rw [hdue.states, hupSect]
    · have hact : phaseAct (makeRelease (releaseUpkeep w)) = .move .failed := by
        refine moves (hd.congr (((hup.mono (by decide)).trans hkept) .peers (by decide))) ?_ ?_ <;> rw [hl]
        · rw [show ({ (releaseUpkeep w).phase with heldByRelease := l } : PhaseUnit).phase = w.phase.phase from hupPhase]
          exact hs
        · rw [show ({ (releaseUpkeep w).phase with heldByRelease := l } : PhaseUnit).phase = w.phase.phase from hupPhase]
          exact hf
      have hnote : noteStanding (makeRelease (releaseUpkeep w)) = makeRelease (releaseUpkeep w) := if_neg (by simp [htested])
      have hholds : releaseHolds (makeRelease (releaseUpkeep w)) = false := by rw [releaseHolds, htested, Bool.false_and]
      rw [evaluate]
      simp only [hrel, if_true]
      rw [evaluate]
      simp only [hsame, hholds, Bool.false_eq_true, if_false, hnote, hact]
  · have hnote := noteStanding_kept (releaseUpkeep w)
    have hphase : (noteStanding (releaseUpkeep w)).phase.phase = w.phase.phase := (noteStanding_phase _).trans hupPhase
    refine ⟨noteStanding (releaseUpkeep w), k + 1, ⟨(hup.trans hnote).mono (by decide), hphase, ?_⟩, ?_⟩
    · rw [hnote .sections (by decide), hupSect]
    · have hact : phaseAct (noteStanding (releaseUpkeep w)) = .move .failed :=
        moves (hd.congr ((hup.trans hnote) .peers (by decide))) (by rw [hphase]; exact hs) (by rw [hphase]; exact hf)
      rw [evaluate]
      simp only [hrel, Bool.false_eq_true, if_false, hact]

/-- The evaluation of a crossing under failure demand and all signals that follow leave it FAILED, with what the move to FAILED has made of the
first-fault record. -/
theorem drain_fails {w : State} (hd : SomeStale w) (hn : (w.sections.map (·.id)).Nodup) (hs : w.phase.phase ≠ .starting) (n : Nat) :
    (drain (n + 1) [.evaluate] w).phase.phase = .failed
      ∧ (w.phase.phase ≠ .failed → ∃ x, AtFailure w x
          ∧ (drain (n + 1) [.evaluate] w).firstFault = (firstFaultTrigger x.phase.phase (entered .failed x)).firstFault) := by
  by_cases hf : w.phase.phase = .failed
  · have hend : Fails w (drain (n + 1) [.evaluate] w) := Fails.drain hd ⟨KeptBut.refl _ w, hf, rfl⟩
    exact ⟨hend.phase, fun hne => absurd hf hne⟩
  · obtain ⟨x, m, hx, heval⟩ := evaluate_fails hd hn hs hf 14
    obtain ⟨hphase, hfirst⟩ := movePhase_failed x
    have hy : Fails (movePhase .failed x).1 (movePhase .failed x).1 := ⟨KeptBut.refl _ _, hphase, rfl⟩
    have hstale : SomeStale (movePhase .failed x).1 :=
      hd.congr ((movePhase_kept .failed x .peers (by decide)).trans (hx.kept .peers (by decide)))
    have hhandled : (handleSig .evaluate w).1 = (movePhase .failed x).1 := by
      show (evaluate (14 + 2) w).1 = _
      rw [heval, Work.andThen, hy.evaluate hstale m]
    have hend : Fails (movePhase .failed x).1 (drain (n + 1) [.evaluate] w) := by
      rw [drain_cons, hhandled]
      exact Fails.drain hstale hy
    exact ⟨hend.phase, fun _ => ⟨x, hx, hend.firstFault.trans hfirst⟩⟩

/-! ### The first-fault record (R124, R184, R185) -/

theorem conclude_firstFault (s0 s1 : State) : (conclude s0 s1).firstFault = (completeFirstFault s0 (chooseLeader s1)).firstFault := by
  unfold conclude
  extract_lets s2 s3 s4 s5
  have h2 : s2.firstFault = (completeFirstFault s0 (chooseLeader s1)).firstFault := judgeDcis_kept _ .firstFault (by decide)
  have h3 : s3.firstFault = s2.firstFault :=
    KeptBut.ite (l := [.line]) (fun _ => askStatus_kept s2) (fun _ => KeptBut.refl _ s2) .firstFault (by decide)
  have h4 : s4.firstFault = s3.firstFault := followQuiet_kept s3 .firstFault (by decide)
  have h5 : s5.firstFault = s4.firstFault :=
    KeptBut.ite (l := [.line]) (fun _ => contendNow_kept s4) (fun _ => KeptBut.refl _ s4) .firstFault (by decide)
  rw [transmit_kept s5 .firstFault (by decide), h5, h4, h3, h2]

/-- A first-fault record filled in the event is completed at its end, with the LIVE mask as it then stands (R185). -/
theorem conclude_fills {s0 s1 : State} {r : FirstFault} (h0 : s0.firstFault = none) (h1 : s1.firstFault = some r) :
    ∃ q, (conclude s0 s1).firstFault = some q ∧ q.time = r.time ∧ q.cause = r.cause ∧ q.before = r.before ∧ q.live = liveMask s1 := by
  have hleader : (chooseLeader s1).firstFault = some r := (chooseLeader_kept s1 .firstFault (by decide)).trans h1
  have hlive : liveMask (chooseLeader s1) = liveMask s1 := by
    rw [liveMask, liveMask, chooseLeader_kept s1 .cfg (by decide), chooseLeader_kept s1 .peers (by decide)]
  refine ⟨{ r with sections := sectionSummary (chooseLeader s1), live := liveMask (chooseLeader s1), condCount := (chooseLeader s1).conds.length }, ?_,
    rfl, rfl, rfl, hlive⟩
  rw [conclude_firstFault, completeFirstFault, h0, hleader]

/-- The highest-ranked of a list is the one that ranks above all others of it (R173). -/
theorem highestCond_eq {c : CondId} {l : List CondId} (hc : c ∈ l) (hl : ∀ d ∈ l, d = c ∨ c.rank < d.rank) : highestCond l = some c := by
  have mem {l : List CondId} {d : CondId} (h : highestCond l = some d) : d ∈ l := by
    induction l generalizing d with
    | nil => cases h
    | cons x rest ih =>
      unfold highestCond at h
      split at h
      · cases h
        exact List.mem_cons_self
      next e he =>
        split at h
        · cases h
          exact List.mem_cons_of_mem _ (ih he)
        · cases h
          exact List.mem_cons_self
  induction l with
  | nil => cases hc
  | cons x rest ih =>
    unfold highestCond
    have hrest := fun hm => ih hm fun d hd => hl d (List.mem_cons_of_mem _ hd)
    split
    next hnone =>
      rcases List.mem_cons.mp hc with rfl | hm
      · rfl
      · rw [hrest hm] at hnone
        cases hnone
    next e he =>
      rcases hl x List.mem_cons_self with rfl | hx
      · refine if_neg fun hlt => ?_
        rcases hl e (List.mem_cons_of_mem _ (mem he)) with rfl | h <;> omega
      · have hm : c ∈ rest := (List.mem_cons.mp hc).resolve_left fun h => by rw [h] at hx; omega
        have hec : e = c := Option.some.inj (he.symm.trans (hrest hm))
        rw [hec, if_pos hx]

/-! ### What the loss of a peer changes at once (R54, R98) -/

/-- The change of one record of a table whose ids are each one section's, outside declared lockout. -/
theorem mapSect_sections {id : Nat} {f : Sect → Sect} {s : State} (hn : (s.sections.map (·.id)).Nodup) (hd : declaredLockout s = false)
    (hf : ∀ r, (f r).id = r.id) : (mapSect id f s).sections = s.sections.map fun q => if q.id = id then f q else q := by
  cases hat : sectAt s id with
  | none =>
    have hno := sectAt_eq_none.mp hat
    rw [mapSect_of_none hat]
    exact ((List.map_congr_left (g := fun q => q) fun q hq => if_neg (hno q hq)).trans (List.map_id' _)).symm
  | some r =>
    have hid : r.id = id := sectAt_id hat
    have hput : mapSect id f s = putSect (f r) s := by simp [mapSect, hat, hd]
    rw [hput, putSect_sections (b := r) (by rw [hf r, hid]; exact hat)]
    refine List.map_congr_left fun q hq => ?_
    rw [hf r, hid]
    by_cases hq' : q.id = id
    · rw [if_pos hq', if_pos hq', List.inj_on_of_nodup_map hn hq (sectAt_mem hat) (hq'.trans hid.symm)]
    · rw [if_neg hq', if_neg hq']

theorem mapSects_sections {ids : List Nat} {f : Sect → Sect} {s : State} (hn : (s.sections.map (·.id)).Nodup) (hd : declaredLockout s = false)
    (hf : ∀ r, (f r).id = r.id) (hids : ids.Nodup) : (mapSects ids f s).sections = s.sections.map fun q => if q.id ∈ ids then f q else q := by
  induction ids generalizing s with
  | nil => simp [mapSects]
  | cons id rest ih =>
    obtain ⟨hid, hrest⟩ := List.nodup_cons.mp hids
    have hone := mapSect_sections (id := id) hn hd hf
    have hsame : (mapSect id f s).sections.map (·.id) = s.sections.map (·.id) := by
      rw [hone, List.map_map]
      refine List.map_congr_left fun q _ => ?_
      show (if q.id = id then f q else q).id = q.id
      split
      · exact hf q
      · rfl
    have hlock : declaredLockout (mapSect id f s) = false := by
      rw [declaredLockout, mapSect_kept id f s .join (by decide)]
      exact hd
    show (mapSects rest f (mapSect id f s)).sections = _
    rw [ih (by rw [hsame]; exact hn) hlock hrest, hone, List.map_map]
    refine List.map_congr_left fun q _ => ?_
    show (if (if q.id = id then f q else q).id ∈ rest then f (if q.id = id then f q else q) else if q.id = id then f q else q) = _
    by_cases hq : q.id = id
    · simp [hq, hf, hid]
    · simp [hq]

/-- A section that one of a list of DPs bounds is among theirs. -/
theorem mem_sectionsOfDps {s : State} {dps : List Nat} {r : Sect} (hr : r ∈ s.sections) (hd : ∃ d ∈ dps, r.id ∈ boundedBy d) :
    r.id ∈ sectionsOfDps s dps := by
  obtain ⟨d, hd, hb⟩ := hd
  exact List.mem_filter.mpr ⟨List.mem_map_of_mem hr, List.any_eq_true.mpr ⟨d, hd, by simpa using hb⟩⟩

theorem Sect.loseOwner_id (n : Nat) (r : Sect) : (r.loseOwner n).id = r.id := by
  unfold Sect.loseOwner
  repeat' split
  all_goals rfl

theorem Sect.loseOwner_disturbed {n : Nat} {r : Sect} : (r.loseOwner n).state = .disturbed ↔ r.state = .disturbed := by
  unfold Sect.loseOwner
  cases h : r.state <;> dsimp only
  case unknown => split <;> simp [h]
  all_goals simp [h]

theorem Sect.loseOwner_tracked {n : Nat} {r : Sect} (h : r.state = .clear ∨ r.state = .occupied ∨ r.state = .restoring) :
    (r.loseOwner n).state = .unknown ∧ (r.loseOwner n).underlying = some r.state ∧ (r.loseOwner n).awaited = [n]
      ∧ (r.loseOwner n).balance = r.balance := by
  rcases h with h | h | h <;> simp [Sect.loseOwner, h]

theorem setPeerState_lost {n : Nat} {s : State} {p : Peer} (hat : peerAt s n = some p) (hl : p.state = .live) :
    setPeerState n .stale s = loseOwner n (raiseCond (condOf .peerLost n 0)
      (clearCond (condOf .peerDisagrees n 0) (putPeer { p with state := .stale }.forgetMismatch s))) := by
  simp [setPeerState, hat, hl]

theorem setPeerState_unanswered {n : Nat} {s : State} {p : Peer} (hat : peerAt s n = some p) (hl : p.state = .hailing) :
    setPeerState n .stale s = raiseCond (condOf .peerLost n 0) (putPeer { p with state := .stale } s) := by
  simp [setPeerState, hat, hl]

/-- PEER_LOST stays through the handling of signals: it ranks above whatever that raises (R173). -/
theorem peerLost_stable (n : Nat) : SignalStable fun s => hasCond s (condOf .peerLost n 0) = true where
  still hc _ _ _ h := (hasCond_congr hc _).trans h
  clears hk h := (hasCond_clearCond_kind (fun he => by rw [← he] at hk; revert hk; simp [signalKinds]) _).trans h
  raises hm h := by
    refine hasCond_raiseCond_of_hasCond (.inr (Nat.le_of_lt ?_)) h
    simp only [signalConds, List.mem_cons, List.not_mem_nil, or_false] at hm
    rcases hm with rfl | rfl | rfl | rfl | rfl | rfl | rfl <;> exact condOf_rank_lt (by decide) _ _ _ _
  releases _ h := hasCond_makeRelease (fun _ => (condOf_rank_lt (by decide) _ _ _ _).le) h

/-! ### The event that loses a peer -/

/-- A peer's entry has become STALE, with PEER_LOST standing; the phase has not moved yet. -/
structure PeerGone (n : Nat) (q : Peer) (s w : State) : Prop where
  station : q.station = n
  stale : q.state = .stale
  peers : w.peers = s.peers.map fun p => if p.station = n then q else p
  kept : KeptBut [.peers, .view, .sections, .conds, .notices, .phase] s w
  phase : w.phase.phase = s.phase.phase
  ids : w.sections.map (·.id) = s.sections.map (·.id)
  stands : hasCond w (condOf .peerLost n 0) = true

namespace PeerGone

variable {n : Nat} {q p : Peer} {s w : State} (h : PeerGone n q s w) (hat : peerAt s n = some p)
include h hat

omit h in
theorem mem_station : p ∈ s.peers ∧ p.station = n := ⟨List.mem_of_find?_eq_some hat, by simpa using List.find?_some hat⟩

theorem peerAt_gone : peerAt w n = some q := by
  have hp : (fun p : Peer => p.station == n) ∘ (fun p => if p.station = n then q else p) = fun p => p.station == n := by
    funext x
    by_cases hx : x.station = n <;> simp [hx, h.station]
  have hat' : s.peers.find? (fun p => p.station == n) = some p := hat
  rw [peerAt, h.peers, List.find?_map, hp, hat', Option.map_some, if_pos (mem_station hat).2]

theorem someStale : SomeStale w := ⟨q, List.mem_of_find?_eq_some (h.peerAt_gone hat), h.stale⟩

/-- The change of the entry is one that the phase unit evaluates (R106). -/
theorem evaluated (hp : p.state ≠ .stale) : phaseInputsChanged s w = true := by
  have hne : s.peers.map Peer.watched ≠ w.peers.map Peer.watched := by
    rw [h.peers, List.map_map]
    intro he
    obtain ⟨hm, hst⟩ := mem_station hat
    have hp' := List.map_inj_left.mp he p hm
    have hsame : p.state = (if p.station = n then q else p).state := congrArg Prod.fst hp'
    rw [if_pos hst, h.stale] at hsame
    exact hp hsame
  simp [phaseInputsChanged, hne]

omit hat in
/-- No live peer has the number of the one that is gone. -/
theorem not_live (hown : n ≠ s.cfg.own) : n ∉ liveMask w := by
  have hcfg : w.cfg = s.cfg := h.kept .cfg (by decide)
  have hno : (w.peers.any fun p => p.station == n && p.state == .live) = false := by
    rw [List.any_eq_false, h.peers]
    intro x hx
    obtain ⟨y, -, rfl⟩ := List.mem_map.mp hx
    split
    · simp [h.stale]
    · simp_all
  intro hm
  have := (List.mem_filter.mp hm).2
  simp [hcfg, hown, hno] at this

/-- The event of the loss: the entry stays STALE, PEER_LOST stands, the phase is FAILED. -/
theorem event_fails {dt : Nat} {s0 : State} {f : State → Work} (hpow : s0.powered = true) (hs : s = advance dt s0) (hf : f s = (w, []))
    (hp : p.state ≠ .stale) (hn : (s0.sections.map (·.id)).Nodup) (hphase : s0.phase.phase ≠ .starting) :
    event dt s0 f = conclude s (drain drainFuel [.evaluate] w) ∧ peerAt (event dt s0 f) n = some q
      ∧ hasCond (event dt s0 f) (condOf .peerLost n 0) = true ∧ (event dt s0 f).phase.phase = .failed := by
  subst hs
  have heq : event dt s0 f = conclude (advance dt s0) (drain drainFuel [.evaluate] w) := by
    rw [event_eq hpow, hf, h.evaluated hat hp]
    rfl
  have hwork := event_kept_work (dt := dt) (f := f) hpow .peers (by decide)
  obtain ⟨hfailed, -⟩ := drain_fails (h.someStale hat) (by rw [h.ids]; exact hn) (by rw [h.phase]; exact hphase) 1023
  refine ⟨heq, ?_, (peerLost_stable n).event hpow (by rw [hf]; exact h.stands), ?_⟩
  · rw [← h.peerAt_gone hat, peerAt, hwork, hf, peerAt]
  · rw [heq, conclude_kept _ _ .phase (by decide)]
    exact hfailed

/-- Of the causes of failure demand the peer that is gone ranks highest where none stood before (R107, R173). -/
theorem failureCause_gone (hno : failureDemand s = false) (hdist : ∀ r ∈ w.sections, r.state ≠ .disturbed) :
    highestCond (failureCauses w) = some (condOf .peerLost n 0) := by
  have hnone := failureCauses_of_no_demand hno
  have old (c : CondId) : c ∉ failureCauses s := by rw [hnone]; exact List.not_mem_nil
  have peer {x : Peer} (hx : x ∈ w.peers) : x = q ∨ x ∈ s.peers := by
    rw [h.peers] at hx
    obtain ⟨y, hy, rfl⟩ := List.mem_map.mp hx
    split
    · exact .inl rfl
    · exact .inr hy
  refine highestCond_eq ?_ fun d hd => ?_
  · have hq : q ∈ w.peers := List.mem_of_find?_eq_some (h.peerAt_gone hat)
    exact mem_failureCauses.mpr (.inr (.inl ⟨q, hq, .inr (.inr h.stale), by rw [h.station]⟩))
  · rcases mem_failureCauses.mp hd with ⟨x, hx, hst, rfl⟩ | ⟨x, hx, hst, rfl⟩ | ⟨r, -, -, rfl⟩ | ⟨r, hr, hst, -⟩
    · rcases peer hx with rfl | hx
      · rw [h.stale] at hst
        cases hst
      · exact absurd (mem_failureCauses.mpr (.inl ⟨x, hx, hst, rfl⟩)) (old _)
    · rcases peer hx with rfl | hx
      · exact .inl (by rw [h.station])
      · exact absurd (mem_failureCauses.mpr (.inr (.inl ⟨x, hx, hst, rfl⟩))) (old _)
    · exact .inr (condOf_rank_lt (by decide) _ _ _ _)
    · exact absurd hst (hdist r hr)

/-- The move to FAILED fills an empty first-fault record from the loss (R124, R184, R185). -/
theorem fills_firstFault (hno : failureDemand s = false) (hdist : ∀ r ∈ w.sections, r.state ≠ .disturbed)
    (hn : (s.sections.map (·.id)).Nodup) (hphase : s.phase.phase ≠ .starting) (hfailed : s.phase.phase ≠ .failed) (hff : s.firstFault = none)
    (hown : n ≠ s.cfg.own) :
    ∃ r, (conclude s (drain drainFuel [.evaluate] w)).firstFault = some r ∧ r.time = s.clock.ms ∧ r.cause = some (condOf .peerLost n 0)
      ∧ r.before = s.phase.phase ∧ n ∉ r.live := by
  obtain ⟨-, hfill⟩ := drain_fails (h.someStale hat) (by rw [h.ids]; exact hn) (by rw [h.phase]; exact hphase) 1023
  obtain ⟨x, hx, hrec⟩ := hfill (by rw [h.phase]; exact hfailed)
  have hxff : (entered .failed x).firstFault = none := by
    rw [entered_kept .failed x .firstFault (by decide), hx.kept .firstFault (by decide), h.kept .firstFault (by decide)]
    exact hff
  have hcause : failureCause (entered .failed x) = some (condOf .peerLost n 0) := by
    have hpeers : x.peers = w.peers := hx.kept .peers (by decide)
    have hcauses : failureCauses (entered .failed x) = failureCauses w := failureCauses_congr (t := entered .failed x) (by
      show x.peers.map _ = _
      rw [hpeers]) hx.states
    rw [failureCause, hcauses]
    exact h.failureCause_gone hat hno hdist
  have hclock : (entered .failed x).clock = s.clock :=
    (entered_kept .failed x .clock (by decide)).trans ((hx.kept .clock (by decide)).trans (h.kept .clock (by decide)))
  simp only [firstFaultTrigger, hxff] at hrec
  obtain ⟨r, hr, htime, hrcause, hbefore, hlive⟩ := conclude_fills (s0 := s) hff hrec
  refine ⟨r, hr, htime.trans (congrArg Clock.ms hclock), hrcause.trans hcause, hbefore.trans (hx.phase.trans h.phase), ?_⟩
  have hmask : liveMask (drain (1023 + 1) [.evaluate] w) = liveMask w := by
    rw [liveMask, liveMask, drain_kept _ _ _ .cfg (by decide), drain_kept _ _ _ .peers (by decide)]
  rw [hlive, hmask]
  exact h.not_live hown

end PeerGone

section
variable {n : Nat} {s : State} {p : Peer} (hat : peerAt s n = some p) (hconds : s.conds.length ≤ 16)
include hat hconds

/-- A LIVE peer lost: its DPs LOST, every record that they bound without an owner (R54). -/
theorem setPeerState_live_gone (hl : p.state = .live) (hlen : s.sections.length ≤ 6) (hd : declaredLockout s = false)
    (hn : (s.sections.map (·.id)).Nodup) :
    PeerGone n { p with state := .stale }.forgetMismatch s (setPeerState n .stale s)
      ∧ (setPeerState n .stale s).view = (s.view.map fun v => if v.owner = n then { v with state := .lost } else v)
      ∧ (setPeerState n .stale s).sections
        = s.sections.map fun q => if q.id ∈ sectionsOfDps s (dpsOf s n) then q.loseOwner n else q := by
  have hkept := setPeerState_kept n .stale s
  have hst : p.station = n := (PeerGone.mem_station hat).2
  rw [setPeerState_lost hat hl] at hkept ⊢
  generalize hv : raiseCond (condOf .peerLost n 0)
    (clearCond (condOf .peerDisagrees n 0) (putPeer { p with state := .stale }.forgetMismatch s)) = v at hkept ⊢
  have hvk : KeptBut [.conds, .notices] (putPeer { p with state := .stale }.forgetMismatch s) v := by
    rw [← hv]
    exact (clearCond_kept _ _).trans (raiseCond_kept _ _)
  have hvsect : v.sections = s.sections := hvk .sections (by decide)
  have hvview : v.view = s.view := hvk .view (by decide)
  have hids : sectionsOfDps v (dpsOf v n) = sectionsOfDps s (dpsOf s n) := by
    have hcfg : v.cfg = s.cfg := hvk .cfg (by decide)
    have howner : ownerOf v = ownerOf s := funext fun d => by rw [ownerOf, ownerOf, hcfg]
    rw [sectionsOfDps, sectionsOfDps, dpsOf, dpsOf, hvsect, howner, hcfg]
  have hcount : (sectionsOfDps s (dpsOf s n)).length ≤ 6 := (List.length_filter_le _ _).trans (by rw [List.length_map]; exact hlen)
  have hclear := length_clearCond_le (condOf .peerDisagrees n 0) (putPeer { p with state := .stale }.forgetMismatch s)
  rw [putPeer_conds] at hclear
  have hstands : hasCond v (condOf .peerLost n 0) = true := by
    rw [← hv]
    exact hasCond_raiseCond (by omega)
  have hvconds : v.conds.length ≤ 17 := by
    rw [← hv]
    exact (length_raiseCond_le _ _).trans (by omega)
  have hlock : declaredLockout v = false := by
    rw [declaredLockout, hvk .join (by decide)]
    exact hd
  have hsections : (loseOwner n v).sections = s.sections.map fun q => if q.id ∈ sectionsOfDps s (dpsOf s n) then q.loseOwner n else q := by
    unfold loseOwner
    rw [hids]
    have hmap := mapSects_sections (ids := sectionsOfDps s (dpsOf s n)) (f := Sect.loseOwner n)
      (s := { v with view := v.view.map fun e => if e.owner = n then { e with state := .lost } else e })
      (by show (v.sections.map _).Nodup; rw [hvsect]; exact hn) hlock (Sect.loseOwner_id n) (hn.filter _)
    rw [hmap]
    exact congrArg _ hvsect
  refine ⟨⟨hst, rfl, ?_, hkept, ?_, ?_, ?_⟩, ?_, hsections⟩
  · rw [loseOwner_kept n v .peers (by decide), hvk .peers (by decide)]
    show (s.peers.map fun x => if x.station = p.station then _ else x) = _
    rw [hst]
  · unfold loseOwner
    rw [mapSects_phase]
    exact congrArg PhaseUnit.phase (hvk .phase (by decide))
  · rw [hsections, List.map_map]
    refine List.map_congr_left fun q _ => ?_
    show (if q.id ∈ _ then q.loseOwner n else q).id = q.id
    split
    · exact Sect.loseOwner_id n q
    · rfl
  · unfold loseOwner
    rw [hids]
    exact hasCond_mapSects (by simp [sectKinds]) (by show v.conds.length + _ ≤ 31; omega) hstands
  · unfold loseOwner
    rw [mapSects_kept _ _ _ .view (by decide), ← hvview]

/-- A HAILING peer that is not heard again: its entry alone. -/
theorem setPeerState_hailing_gone (hl : p.state = .hailing) :
    PeerGone n { p with state := .stale } s (setPeerState n .stale s)
      ∧ KeptBut [.peers, .conds, .notices] s (setPeerState n .stale s) := by
  have hst : p.station = n := (PeerGone.mem_station hat).2
  rw [setPeerState_unanswered hat hl]
  have hrk := raiseCond_kept (condOf .peerLost n 0) (putPeer { p with state := .stale } s)
  have hk : KeptBut [.peers, .conds, .notices] s (raiseCond (condOf .peerLost n 0) (putPeer { p with state := .stale } s)) :=
    ((putPeer_kept _ s).mono (by decide)).trans (hrk.mono (by decide))
  refine ⟨⟨hst, rfl, ?_, hk.mono (by decide), ?_, ?_, hasCond_raiseCond (by rw [putPeer_conds]; omega)⟩, hk⟩
  · rw [hrk .peers (by decide)]
    show (s.peers.map fun x => if x.station = p.station then _ else x) = _
    rw [hst]
  · rw [hk .phase (by decide)]
  · rw [hk .sections (by decide)]

end

/-- PEER_AGE_TIMEOUT of a peer that has timed out makes its entry STALE (R98). -/
theorem exec_peerAgeTimeout {dt n : Nat} {s : State} {p : Peer} (hat : peerAt (advance dt s) n = some p) (ht : peerTimedOut (advance dt s) p = true) :
    ∃ f : State → Work, exec (.peerAgeTimeout dt n) s = .next (event dt s f) ∧ f (advance dt s) = (setPeerState n .stale (advance dt s), []) := by
  refine ⟨_, rfl, ?_⟩
  rw [guarded_apply (by rw [hat]; exact ht), plain_apply]

/-- Settles O51: the entry becomes STALE with what follows it at once, and the evaluation of the change moves the phase to FAILED and fills the
first-fault record. -/
theorem silentPeerIsLost : Obligations.SilentPeerIsLost := by
  unfold Obligations.SilentPeerIsLost
  intro dt n s p hpow hat hj hconds hlen hn hphase
  have hatA : peerAt (advance dt s) n = some (p.grow ((s.clock.frac + dt) / 1000)) := by rw [peerAt_advance, hat]; rfl
  have hlock : declaredLockout (advance dt s) = false := by simp [declaredLockout, hj]
  constructor
  · intro g hl hage hlate
    have htimed : peerTimedOut (advance dt s) (p.grow ((s.clock.frac + dt) / 1000)) = true := by
      simp only [peerTimedOut, Peer.grow, hl, hage, Option.map_some, Option.any_some]
      exact decide_eq_true hlate
    obtain ⟨f, hexec, hf⟩ := exec_peerAgeTimeout hatA htimed
    obtain ⟨hgone, hview, hsections⟩ := setPeerState_live_gone hatA hconds hl hlen hlock hn
    obtain ⟨heq, hpeer, hcond, hfailed⟩ := hgone.event_fails hatA hpow rfl hf (fun he => absurd (hl.symm.trans he) (by decide)) hn hphase
    have hrecord {r : Sect} (hr : r ∈ s.sections) (hd : ∃ d ∈ dpsOf s n, r.id ∈ boundedBy d) :
        sectAt (setPeerState n .stale (advance dt s)) r.id = some (r.loseOwner n) := by
      rw [sectAt_map (fun q => by split; exacts [Sect.loseOwner_id n q, rfl]) hsections, sectAt_of_mem (s := advance dt s) hn hr, Option.map_some,
        if_pos (mem_sectionsOfDps (s := advance dt s) (dps := dpsOf (advance dt s) n) hr hd)]
    refine ⟨_, _, hexec, hpeer, rfl, rfl, rfl, hcond, ?_, fun r hr hd hst => ?_, fun r hr hd hst => ?_, hfailed, fun hno hnf hff _ hown _ => ?_⟩
    · rw [event_kept_work hpow .view (by decide), hf]
      exact hview
    · refine (sectHas_stable (P := fun q => q.state = .unknown ∧ q.underlying = some r.state ∧ q.awaited = [n] ∧ q.balance = r.balance)
        fun _ h => h).event hpow ?_
      rw [hf]
      exact ⟨_, hrecord hr hd, Sect.loseOwner_tracked hst⟩
    · refine (sectHas_stable (P := fun q => q.state = .disturbed) fun _ h => h).event hpow ?_
      rw [hf]
      exact ⟨_, hrecord hr hd, Sect.loseOwner_disturbed.mpr hst⟩
    · have hnoA : failureDemand (advance dt s) = false := (failureDemand_advance dt s).trans hno
      have hdist : ∀ r ∈ (setPeerState n .stale (advance dt s)).sections, r.state ≠ .disturbed := by
        rw [hsections]
        intro r hr hst
        obtain ⟨q, hq, rfl⟩ := List.mem_map.mp hr
        split at hst
        · exact undisturbed_of_no_demand hno q hq (Sect.loseOwner_disturbed.mp hst)
        · exact undisturbed_of_no_demand hno q hq hst
      rw [heq]
      exact hgone.fills_firstFault hatA hnoA hdist hn hphase hnf hff hown
  · intro h hl hheard hlate
    have htimed : peerTimedOut (advance dt s) (p.grow ((s.clock.frac + dt) / 1000)) = true := by
      simp only [peerTimedOut, Peer.grow, hl, hheard, Option.any_some, advance_join, hj]
      exact decide_eq_true hlate
    obtain ⟨f, hexec, hf⟩ := exec_peerAgeTimeout hatA htimed
    obtain ⟨hgone, hkept⟩ := setPeerState_hailing_gone hatA hconds hl
    obtain ⟨-, hpeer, hcond, hfailed⟩ := hgone.event_fails hatA hpow rfl hf (fun he => absurd (hl.symm.trans he) (by decide)) hn hphase
    refine ⟨_, _, hexec, hpeer, rfl, hcond, ?_, hfailed⟩
    rw [event_kept_work hpow .view (by decide), hf]
    exact hkept .view (by decide)

end Sys2Proof.Machine
end

section
/-! ## The start of a station whose image passes (R189, R192) -/

namespace Sys2Proof.Machine

/-! ### An event in STARTING -/

/-- In STARTING an evaluation finds nothing to do (R105, R110). -/
theorem evaluate_starting {s : State} (hp : s.phase.phase = .starting) (n : Nat) : evaluate n s = (s, []) := by
  cases n with
  | zero => rfl
  | succ n =>
    have hshut : ReleaseShut s := fun hc => absurd (hp.symm.trans hc) (by decide)
    have hup : releaseUpkeep s = s := releaseUpkeep_open (by rw [hp]; decide)
    have hstay : phaseAct (releaseUpkeep s) = .stay := by simp [hup, phaseAct, hp]
    rw [evaluate_stays hshut hstay, hup]

/-- An event whose work gives no signals and leaves the phase STARTING is that work and its conclusion, whatever of sections and peers it changes. -/
theorem event_starting {dt : Nat} {s u : State} {f : State → Work} (hp : s.powered = true) (hf : f (advance dt s) = (u, []))
    (hu : u.phase.phase = .starting) : event dt s f = conclude (advance dt s) u := by
  have hdrain : drain drainFuel (if phaseInputsChanged (advance dt s) u then [.evaluate] else []) u = u := by
    split
    · have heval : handleSig .evaluate u = (u, []) := evaluate_starting hu moveFuel
      show drain (1023 + 1) [.evaluate] u = u
      rw [drain_cons, heval]
      exact drain_nil _ _
    · exact drain_nil _ _
  rw [event_eq hp, hf, List.nil_append, hdrain]

/-! ### The condition set through a row of raises -/

/-- No other condition comes with a raised one. -/
theorem hasCond_raiseCond_absent {c d : CondId} {s : State} (hne : d ≠ c) (hd : hasCond s d = false) : hasCond (raiseCond c s) d = false := by
  rw [Bool.eq_false_iff] at hd ⊢
  intro hin
  obtain ⟨e, he, hid⟩ := hasCond_iff.mp hin
  have hentry : e ≠ condEntry s c := fun h => hne (by rw [← hid, h]; rfl)
  have old (hm : e ∈ s.conds) : False := hd (hasCond_iff.mpr ⟨e, hm, hid⟩)
  rcases raiseCond_cases c s with ⟨-, hs⟩ | ⟨-, -, hs⟩ | ⟨-, -, -, -, -, hs⟩ | ⟨-, -, hs⟩
  · exact hd ((hasCond_of_ids hs d).symm.trans hin)
  · rw [hs] at he
    exact old ((mem_insertRanked.mp he).resolve_left hentry)
  · rw [hs] at he
    exact old (List.mem_of_mem_dropLast ((mem_insertRanked.mp he).resolve_left hentry))
  · rw [hs] at he
    exact old he

/-- A row of raises for which the set has room: each condition of the row stands, and so does each that stood before; no other comes with them. -/
theorem raiseAll_conds (cs : List CondId) {s : State} (hl : s.conds.length + cs.length ≤ 31) :
    (cs.foldl (fun w c => raiseCond c w) s).conds.length ≤ s.conds.length + cs.length
      ∧ (∀ d, d ∈ cs ∨ hasCond s d = true → hasCond (cs.foldl (fun w c => raiseCond c w) s) d = true)
      ∧ ∀ d, d ∉ cs → hasCond s d = false → hasCond (cs.foldl (fun w c => raiseCond c w) s) d = false := by
  induction cs generalizing s with
  | nil => exact ⟨le_rfl, fun d h => h.resolve_left List.not_mem_nil, fun _ _ h => h⟩
  | cons c rest ih =>
    have hlt : s.conds.length < 31 := by simp only [List.length_cons] at hl; omega
    have hle := length_raiseCond_le c s
    obtain ⟨hlen, hstands, habsent⟩ := ih (s := raiseCond c s) (by simp only [List.length_cons] at hl; omega)
    refine ⟨by simp only [List.foldl_cons, List.length_cons]; omega, fun d hd => hstands d ?_, fun d hd hno => ?_⟩
    · rcases hd with hd | hd
      · rcases List.mem_cons.mp hd with rfl | hd
        · exact .inr (hasCond_raiseCond hlt)
        · exact .inl hd
      · exact .inr (hasCond_raiseCond_of_hasCond (.inl hlt) hd)
    · rw [List.mem_cons, not_or] at hd
      exact habsent d hd.2 (hasCond_raiseCond_absent hd.1 hno)

/-! ### A pattern handed over at the start (R142, R148) -/

/-- Whether the notice list is kept is no matter of the conditions (R177). -/
theorem noticeSync_started (s : State) : (noticeSync s).notices.kept = s.notices.kept := by
  have newcomer (u : NoticeUnit) (c : CondId) : (u.newcomer c).kept = u.kept := by
    unfold NoticeUnit.newcomer
    repeat' split
    all_goals rfl
  have appears (u : NoticeUnit) (c : CondId) : (u.appears c).kept = u.kept := by
    unfold NoticeUnit.appears
    split
    · rfl
    · exact newcomer u c
  have appeared (l : List CondId) (u : NoticeUnit) : (l.foldl NoticeUnit.appears u).kept = u.kept :=
    List.foldlRecOn (motive := fun v : NoticeUnit => v.kept = u.kept) l _ rfl fun v hv c _ => (appears v c).trans hv
  have gone (l : List CondId) (u : NoticeUnit) : (l.foldl (fun v c => v.mapEntry c Notice.disappear) u).kept = u.kept :=
    List.foldlRecOn (motive := fun v : NoticeUnit => v.kept = u.kept) l _ rfl fun _ hv _ _ => hv
  unfold noticeSync
  split
  · exact (gone _ _).trans (appeared _ _)
  · rfl

theorem noticeSync_present {s : State} (h : s.notices.kept = true) : (noticeSync s).notices.present = presentSet s := by
  rw [noticeSync, if_pos h]

/-- What a change of conditions and of results leaves alone of the lights and the notice list: the pattern, the cold test timer, whether the list is
kept. -/
structure PatternKept (s t : State) : Prop where
  amber : t.lights.amber = s.lights.amber
  red : t.lights.red = s.lights.red
  coldStart : t.lights.coldStart = s.lights.coldStart
  started : t.notices.kept = s.notices.kept

namespace PatternKept

variable {s t u : State}

theorem refl (s : State) : PatternKept s s := ⟨rfl, rfl, rfl, rfl⟩

theorem trans (h : PatternKept s t) (h' : PatternKept t u) : PatternKept s u :=
  ⟨h'.amber.trans h.amber, h'.red.trans h.red, h'.coldStart.trans h.coldStart, h'.started.trans h.started⟩

theorem ite {c : Prop} [Decidable c] (h : PatternKept s t) (h' : PatternKept s u) : PatternKept s (if c then t else u) := by
  split
  · exact h
  · exact h'

theorem of_kept (hl : t.lights = s.lights) (hn : t.notices.kept = s.notices.kept) : PatternKept s t := by
  constructor <;> simp [hl, hn]

theorem putConds (l : List CondEntry) (s : State) : PatternKept s (putConds l s) := by
  have hcount (b : Bool) (s : State) : (countChange b s).notices = s.notices := countChange_kept b s .notices (by decide)
  refine of_kept (putConds_kept l s .lights (by decide)) ?_
  unfold Machine.putConds
  exact (noticeSync_started _).trans (congrArg NoticeUnit.kept (hcount _ _))

theorem raiseCond (c : CondId) (s : State) : PatternKept s (raiseCond c s) := by
  unfold Machine.raiseCond
  repeat' split
  all_goals first
    | exact refl s
    | exact putConds _ s
    | exact of_kept rfl rfl

theorem clearCond (c : CondId) (s : State) : PatternKept s (clearCond c s) := ite (putConds _ s) (refl s)

theorem aspectConds (x y : AspectState) (a : Aspect) (s : State) : PatternKept s (aspectConds x y a s) := by
  unfold Machine.aspectConds
  split
  · exact refl s
  · extract_lets s1
    have h1 : PatternKept s s1 := by
      cases x
      · exact refl s
      · exact clearCond _ s
      · exact clearCond _ s
    cases y
    · exact h1
    · exact h1.trans (raiseCond _ s1)
    · exact h1.trans (raiseCond _ s1)

theorem discardResult (a : Aspect) (s : State) : PatternKept s (discardResult a s) := by
  unfold Machine.discardResult
  refine trans ?_ (aspectConds _ _ a _)
  cases a <;> exact ⟨rfl, rfl, rfl, rfl⟩

theorem discardResults (s : State) : PatternKept s (discardResults s) := by
  unfold Machine.discardResults
  split
  · exact refl s
  · exact List.foldlRecOn (motive := PatternKept s) _ _ (refl s) fun t ht a _ => ite (ht.trans (discardResult a t)) ht

theorem trimPulse (s : State) : PatternKept s { s with lights := s.lights.trimPulse } := by
  have htrim (u : LightsUnit) : u.trimPulse.amber = u.amber ∧ u.trimPulse.red = u.red ∧ u.trimPulse.coldStart = u.coldStart := by
    unfold LightsUnit.trimPulse
    split <;> exact ⟨rfl, rfl, rfl⟩
  obtain ⟨ha, hr, hc⟩ := htrim s.lights
  exact ⟨ha, hr, hc, rfl⟩

end PatternKept

/-- A pattern handed over is the pattern in force; the cold test timer and the notice list's start are untouched. -/
theorem applyPattern_pattern (a : Bool) (r : RedField) (s : State) :
    PatternKept { s with lights := { s.lights with amber := a, red := r } } (applyPattern a r s) := by
  unfold applyPattern
  dsimp only
  refine PatternKept.trans ?_ (PatternKept.trimPulse _)
  refine PatternKept.trans ?_ (PatternKept.discardResults _)
  exact ⟨rfl, rfl, rfl, rfl⟩

/-- A pattern handed over raises at most one condition for each aspect (R150). -/
theorem length_applyPattern_le (a : Bool) (r : RedField) (s : State) : (applyPattern a r s).conds.length ≤ s.conds.length + 3 := by
  have aspect (x y : AspectState) (b : Aspect) (t : State) : (aspectConds x y b t).conds.length ≤ t.conds.length + 1 := by
    unfold aspectConds
    split
    · exact Nat.le_succ _
    · extract_lets t1
      have h1 : t1.conds.length ≤ t.conds.length := by
        cases x
        · exact le_rfl
        · exact length_clearCond_le _ _
        · exact length_clearCond_le _ _
      cases y
      · exact h1.trans (Nat.le_succ _)
      · exact (length_raiseCond_le _ _).trans (Nat.succ_le_succ h1)
      · exact (length_raiseCond_le _ _).trans (Nat.succ_le_succ h1)
  have discard (p : Prop) [Decidable p] (b : Aspect) (t : State) : (if p then discardResult b t else t).conds.length ≤ t.conds.length + 1 := by
    split
    · exact aspect _ _ b _
    · exact Nat.le_succ _
  unfold applyPattern
  extract_lets lights s1
  have hs1 : s1.conds.length ≤ s.conds.length + 3 := by
    unfold s1 discardResults
    split
    · exact Nat.le_add_right _ _
    · simp only [List.foldl_cons, List.foldl_nil]
      refine (discard _ _ _).trans (Nat.succ_le_succ ?_)
      refine (discard _ _ _).trans (Nat.succ_le_succ ?_)
      exact discard _ _ _
  exact hs1

/-- A condition that neither the lamps, the sequencer nor a release raises does not come by the handling of signals. -/
theorem absent_stable {k : CondKind} (hk : k ∉ [CondKind.aspectFailed, .aspectDegraded, .sequenceError, .longClosure]) (sub item : Nat) :
    SignalStable fun s => hasCond s (condOf k sub item) = false where
  still hc _ _ _ h := (hasCond_congr hc _).trans h
  clears {s c} _ h := by
    rw [Bool.eq_false_iff] at h ⊢
    by_cases he : condOf k sub item = c
    · rw [← he, hasCond_clearCond]
      decide
    · rwa [hasCond_clearCond_other he]
  raises {s c} hm h := by
    refine hasCond_raiseCond_absent (fun he => hk ?_) h
    have hkind : k = c.kind := congrArg CondId.kind he
    rw [hkind]
    simp only [signalConds, List.mem_cons, List.not_mem_nil, or_false] at hm
    rcases hm with rfl | rfl | rfl | rfl | rfl | rfl | rfl <;> simp
  releases {s} _ h := by
    refine List.foldlRecOn (motive := fun t => hasCond t (condOf k sub item) = false) _ _ h fun t ht id _ => ?_
    obtain ⟨v, hv, he⟩ := releaseOne_conds t id
    rw [hasCond_congr he]
    refine hasCond_raiseCond_absent (fun heq => hk ?_) ((hasCond_congr hv _).trans ht)
    rw [show k = .longClosure from congrArg CondId.kind heq]
    simp

/-! ### START sweeps (R8, R21, R87) -/

/-- A DP as its block is built, or under its START sweep: CALIBRATING with no counts. -/
def DpUnit.Unproven (epoch : Byte) (u : DpUnit) : Prop := u.state = .calibrating ∧ u.epoch = epoch ∧ u.inn = 0 ∧ u.out = 0

/-- A DP is under its START sweep. -/
def DpUnit.Starting (u : DpUnit) : Prop := ∃ w, u.sweep = some w ∧ w.kind = .start

theorem DpUnit.Unproven.underSweep {e : Byte} {u : DpUnit} (h : u.Unproven e) (now : Time) :
    DpUnit.Unproven e { u.underSweep .start now with state := .calibrating } := by
  obtain ⟨-, he, hi, ho⟩ := h
  unfold DpUnit.underSweep
  cases u.nearer <;> exact ⟨rfl, he, hi, ho⟩

/-- The START sweep of one slot touches the DP records alone. -/
theorem startSweep_start {e : Byte} {s : State} (h : ∀ u ∈ s.dps, u.Unproven e) (slot : Slot) :
    KeptBut [.dps] s (startSweep .start slot s) ∧ (startSweep .start slot s).dps.length = s.dps.length
      ∧ ∀ v ∈ (startSweep .start slot s).dps, v.Unproven e
          ∧ ∃ u ∈ s.dps, u.slot = v.slot ∧ (u.Starting ∨ v.slot = slot → v.Starting) := by
  cases hu : dpAt s slot with
  | none =>
    have hsame : startSweep .start slot s = s := by simp only [startSweep, hu]
    have hno (v : DpUnit) (hv : v ∈ s.dps) : v.slot ≠ slot := by
      have := List.find?_eq_none.mp hu v hv
      simpa using this
    rw [hsame]
    exact ⟨KeptBut.refl _ s, rfl, fun v hv => ⟨h v hv, v, hv, rfl, fun hs => hs.resolve_right (hno v hv)⟩⟩
  | some u =>
    have hmem : u ∈ s.dps := List.mem_of_find?_eq_some hu
    have hun := h u hmem
    rw [startSweep_quiet hu (by rw [hun.1]; decide)]
    refine ⟨putDp_kept _ s, List.length_map _, fun v hv => ?_⟩
    obtain ⟨x, hx, rfl⟩ := List.mem_map.mp hv
    split
    next hslot => exact ⟨hun.underSweep _, x, hx, hslot, fun _ => ⟨_, DpUnit.underSweep_sweep _ _ _, rfl⟩⟩
    next hslot =>
      have hne : x.slot ≠ slot := fun hs => hslot (hs.trans ((dpAt_slot hu).symm.trans (DpUnit.underSweep_slot _ _ _).symm))
      exact ⟨h x hx, x, hx, rfl, fun hs => hs.resolve_right hne⟩

theorem startSweeps_start {e : Byte} (slots : List Slot) {s : State} (h : ∀ u ∈ s.dps, u.Unproven e) :
    KeptBut [.dps] s (slots.foldl (fun w slot => startSweep .start slot w) s)
      ∧ (slots.foldl (fun w slot => startSweep .start slot w) s).dps.length = s.dps.length
      ∧ ∀ v ∈ (slots.foldl (fun w slot => startSweep .start slot w) s).dps, v.Unproven e
          ∧ ∃ u ∈ s.dps, u.slot = v.slot ∧ (u.Starting ∨ v.slot ∈ slots → v.Starting) := by
  induction slots generalizing s with
  | nil => exact ⟨KeptBut.refl _ s, rfl, fun v hv => ⟨h v hv, v, hv, rfl, fun hs => hs.resolve_right List.not_mem_nil⟩⟩
  | cons slot rest ih =>
    obtain ⟨hk, hlen, hone⟩ := startSweep_start h slot
    obtain ⟨hk', hlen', hrest⟩ := ih (s := startSweep .start slot s) fun u hu => (hone u hu).1
    refine ⟨hk.trans hk', hlen'.trans hlen, fun v hv => ?_⟩
    obtain ⟨hun, x, hx, hxs, hxv⟩ := hrest v hv
    obtain ⟨-, u, hu, hus, hux⟩ := hone x hx
    refine ⟨hun, u, hu, hus.trans hxs, fun hs => hxv ?_⟩
    rw [List.mem_cons, ← hxs] at hs
    rcases hs with hs | hs | hs
    · exact .inl (hux (.inl hs))
    · exact .inl (hux (.inr hs))
    · exact .inr (hxs ▸ hs)

/-! ### Service begun (R190, R192, R193) -/

/-- An image that passes has at most two tracks (R190). -/
theorem tracks_of_passed {b c : Bool} {m : List Host.Cell} {im : Image} {d : Half} {clamped : Bool} (h : loadCheck b c m = .passed im d clamped) :
    im.tracks ≤ 2 := by
  unfold loadCheck at h
  split at h
  · cases h
  · dsimp only at h
    split at h
    · cases h
    · split at h
      · cases h
      · cases h
        exact min_le_right _ _

/-- The station itself is no peer of its own (R93). -/
theorem otherStations_ne {im : Image} : ∀ e ∈ otherStations im, e.number ≠ im.own := by
  refine List.foldlRecOn (motive := fun l : List StationEntry => ∀ e ∈ l, e.number ≠ im.own) _ _ (fun _ h => absurd h List.not_mem_nil) ?_
  intro l hl x _ e he
  split at he
  · exact hl e he
  · rename_i hx
    rcases List.mem_append.mp he with he | he
    · exact hl e he
    · rw [List.mem_singleton.mp he]
      exact fun hown => hx (.inl hown)

/-- The parts that the start of service touches once the image is in force. -/
def serviceParts : List Part := [.line, .flash, .lights, .dci, .conds, .notices]

theorem beginReception_kept (s : State) : KeptBut [.line] s (beginReception s) := putLine_kept _ s

theorem beginProving_kept (s : State) : KeptBut [.flash, .lights, .dci] s (beginProving s) := by
  intro p hp; cases p <;> first | rfl | exact ⟨rfl, rfl⟩ | exact absurd (by decide) hp

theorem startOutputs_kept (s : State) : KeptBut [.lights, .conds, .notices] s (startOutputs s) :=
  KeptBut.ite (fun _ => applyPattern_kept _ _ s) fun _ => KeptBut.refl _ s

theorem sectionStartConds_kept (s : State) : KeptBut [.conds, .notices] s (sectionStartConds s) :=
  KeptBut.foldl _ (fun w _ => raiseCond_kept _ w) _ s

variable {im : Image} {d : Half} {clamped : Bool} {s : State}

theorem beginService_kept (im : Image) (d : Half) (clamped : Bool) (s : State) :
    KeptBut serviceParts (build im d s) (beginService im d clamped s) := by
  unfold beginService
  extract_lets s1
  have h1 : KeptBut serviceParts (build im d s) s1 :=
    ((((beginReception_kept _).mono (by decide)).trans ((beginProving_kept _).mono (by decide))).trans ((startOutputs_kept _).mono (by decide))).trans
      ((sectionStartConds_kept _).mono (by decide))
  exact KeptBut.ite (fun _ => h1.trans ((raiseCond_kept _ _).mono (by decide))) fun _ => h1

/-- Reception, flash timebase and indicators stand as they were begun: outputs and conditions leave them alone (R71, R143, R164). -/
theorem beginService_begun (im : Image) (d : Half) (clamped : Bool) (s : State) :
    KeptBut [.lights, .conds, .notices] (beginProving (beginReception (build im d s))) (beginService im d clamped s) := by
  unfold beginService
  extract_lets s1
  have h1 : KeptBut [.lights, .conds, .notices] (beginProving (beginReception (build im d s))) s1 :=
    (startOutputs_kept _).trans ((sectionStartConds_kept _).mono (by decide))
  exact KeptBut.ite (fun _ => h1.trans ((raiseCond_kept _ _).mono (by decide))) fun _ => h1

/-- The conditions of the start leave the lights' pattern as the start outputs set it. -/
theorem beginService_pattern (im : Image) (d : Half) (clamped : Bool) (s : State) :
    PatternKept (startOutputs (beginProving (beginReception (build im d s)))) (beginService im d clamped s) := by
  unfold beginService
  extract_lets s1
  have h1 : PatternKept (startOutputs (beginProving (beginReception (build im d s)))) s1 :=
    List.foldlRecOn (motive := PatternKept _) _ _ (PatternKept.refl _) fun t ht r _ => ht.trans (PatternKept.raiseCond _ t)
  exact PatternKept.ite (h1.trans (PatternKept.raiseCond _ s1)) h1

/-- The start outputs of a post, the cold test timer and the notice list's start (R148, R177, R193). -/
theorem beginService_lights (im : Image) (d : Half) (clamped : Bool) (s : State) :
    (isPost (beginService im d clamped s) = true →
        (beginService im d clamped s).lights.amber = false ∧ (beginService im d clamped s).lights.red = .alternate)
      ∧ (beginService im d clamped s).lights.coldStart = (if isPost (beginService im d clamped s) then some s.clock.ms else none)
      ∧ (beginService im d clamped s).notices.kept = s.notices.kept := by
  have hp := beginService_pattern im d clamped s
  have hpost : isPost (beginService im d clamped s) = isPost (beginProving (beginReception (build im d s))) := by
    have hcfg : (beginService im d clamped s).cfg = (beginProving (beginReception (build im d s))).cfg := beginService_begun im d clamped s .cfg (by decide)
    rw [isPost, isPost, ownRoles, ownRoles, hcfg]
  rw [hpost]
  unfold startOutputs at hp
  cases hcase : isPost (beginProving (beginReception (build im d s))) with
  | true =>
    rw [hcase, if_pos rfl] at hp
    have hall := (applyPattern_pattern false .alternate (beginProving (beginReception (build im d s)))).trans hp
    have hcold : (beginProving (beginReception (build im d s))).lights.coldStart = some s.clock.ms := if_pos hcase
    exact ⟨fun _ => ⟨hall.amber, hall.red⟩, hall.coldStart.trans hcold, hall.started⟩
  | false =>
    rw [hcase, if_neg Bool.false_ne_true] at hp
    have hcold : (beginProving (beginReception (build im d s))).lights.coldStart = none := if_neg fun h => Bool.false_ne_true (hcase.symm.trans h)
    exact ⟨fun h => absurd h Bool.false_ne_true, hp.coldStart.trans hcold, hp.started⟩

/-- Of an empty condition set the start outputs make one of the lamps' conditions alone (R150, R193). -/
theorem startOutputs_conds (h : s.conds = []) (own : Nat) :
    (startOutputs s).conds.length ≤ 3 ∧ hasCond (startOutputs s) (condOf .configClamped own 0) = false := by
  have hlen : s.conds.length = 0 := by rw [h]; rfl
  have hnone : hasCond s (condOf .configClamped own 0) = false := by rw [hasCond, h]; rfl
  unfold startOutputs
  split
  · exact ⟨(length_applyPattern_le _ _ _).trans (by omega), (absent_stable (by decide) _ _).applyPattern hnone⟩
  · exact ⟨by omega, hnone⟩

/-- SECTION_UNKNOWN stands for every section that starts UNKNOWN, CONFIG_CLAMPED where a value was clamped (R42, R191). -/
theorem beginService_conds (hconds : s.conds = []) (htracks : im.tracks ≤ 2) :
    (im.startRestoring = false → ∀ i, i < 3 * im.tracks → hasCond (beginService im d clamped s) (condOf .sectionUnknown i 0) = true)
      ∧ hasCond (beginService im d clamped s) (condOf .configClamped im.own 0) = clamped := by
  unfold beginService
  extract_lets s1
  have hown : ownCond s1 .configClamped 0 = condOf .configClamped im.own 0 := by
    have hcfg : s1.cfg = im := ((startOutputs_kept _).trans ((sectionStartConds_kept _).mono (by decide))) .cfg (by decide)
    rw [ownCond, hcfg]
  obtain ⟨hstart, habsent⟩ := startOutputs_conds (s := beginProving (beginReception (build im d s))) hconds im.own
  have hsect : (startOutputs (beginProving (beginReception (build im d s)))).sections = (List.range (3 * im.tracks)).map (Sect.start im.startRestoring) :=
    startOutputs_kept _ .sections (by decide)
  have hrow : s1 = ((((List.range (3 * im.tracks)).map (Sect.start im.startRestoring)).filter fun r => r.state == .unknown).map
      fun r => condOf .sectionUnknown r.id 0).foldl (fun w c => raiseCond c w) (startOutputs (beginProving (beginReception (build im d s)))) := by
    rw [List.foldl_map, ← hsect]
    rfl
  generalize hcs : (((List.range (3 * im.tracks)).map (Sect.start im.startRestoring)).filter fun r => r.state == .unknown).map
      (fun r => condOf .sectionUnknown r.id 0) = cs at hrow
  have hlen : cs.length ≤ 6 := by
    rw [← hcs, List.length_map]
    refine (List.length_filter_le _ _).trans ?_
    rw [List.length_map, List.length_range]
    omega
  have hother : condOf .configClamped im.own 0 ∉ cs := by
    rw [← hcs]
    intro h
    obtain ⟨r, -, he⟩ := List.mem_map.mp h
    exact absurd (congrArg CondId.kind he) (by simp)
  obtain ⟨hle, hstands, hno⟩ := raiseAll_conds cs (s := startOutputs (beginProving (beginReception (build im d s)))) (by omega)
  rw [← hrow] at hle hstands hno
  have hunknown (hr : im.startRestoring = false) (i : Nat) (hi : i < 3 * im.tracks) : hasCond s1 (condOf .sectionUnknown i 0) = true := by
    refine hstands _ (.inl ?_)
    rw [← hcs]
    refine List.mem_map.mpr ⟨Sect.start im.startRestoring i, List.mem_filter.mpr ⟨List.mem_map.mpr ⟨i, List.mem_range.mpr hi, rfl⟩, ?_⟩, rfl⟩
    rw [hr]
    rfl
  have hlt : s1.conds.length < 31 := by omega
  cases clamped with
  | true =>
    rw [if_pos rfl, hown]
    exact ⟨fun hr i hi => hasCond_raiseCond_of_hasCond (.inl hlt) (hunknown hr i hi), hasCond_raiseCond hlt⟩
  | false =>
    rw [if_neg Bool.false_ne_true]
    exact ⟨hunknown, hno _ hother habsent⟩

/-! ### The signaller line, the sweeps and CALIBRATING (R87, R165, R177) -/

theorem beginSignaller_kept (s : State) : KeptBut [.sig, .notices] s (beginSignaller s) := by
  unfold beginSignaller
  split
  · refine KeptBut.trans (t := { s with sig := { s.sig with started := true, due := some s.clock.ms }, notices := { s.notices with kept := true } }) ?_
      ((noticeSync_kept _).mono (by decide))
    intro p hp; cases p <;> first | rfl | exact ⟨rfl, rfl⟩ | exact absurd (by decide) hp
  · exact KeptBut.refl _ s

theorem beginSignaller_line (h : hasSignaller s = true) :
    (beginSignaller s).sig.started = true ∧ (beginSignaller s).notices.kept = true ∧ (beginSignaller s).notices.present = presentSet s
      ∧ (beginSignaller s).sig.due = some s.clock.ms := by
  rw [beginSignaller, if_pos h]
  generalize hw : ({ s with sig := { s.sig with started := true, due := some s.clock.ms }, notices := { s.notices with kept := true } } : State) = w
  have hsig : (noticeSync w).sig = w.sig := noticeSync_kept w .sig (by decide)
  have hkept : w.notices.kept = true := hw ▸ rfl
  rw [noticeSync_started, noticeSync_present hkept, hsig]
  subst hw
  exact ⟨rfl, rfl, rfl, rfl⟩

/-- Entry into HAILING leaves the reception as it was begun (R88). -/
theorem enterHailing_rxOn (s : State) : (enterHailing s).line.rxOn = s.line.rxOn := by
  have hask (s : State) : (request .hail s).line.rxOn = s.line.rxOn := by
    rcases request_cases (w := .hail) (by decide) s with ⟨-, he⟩ | ⟨-, he⟩ | he <;> rw [he]
    · rfl
    · rfl
  exact hask _

theorem leaveCalibrating_rxOn (s : State) : (leaveCalibrating s).line.rxOn = s.line.rxOn := by
  unfold leaveCalibrating
  split
  · exact enterHailing_rxOn s
  · rfl

/-- CALIBRATING is left at once by a station with no own DP (R87). -/
theorem leaveCalibrating_join (hj : s.join.state = .calibrating) (hd : ∀ u ∈ s.dps, u.Starting) :
    (leaveCalibrating s).join.state = if s.dps = [] then .hailing else .calibrating := by
  split
  next hnil => exact leaveCalibrating_hails hj fun u hu => by rw [hnil] at hu; cases hu
  next hne =>
    obtain ⟨u, hu⟩ := List.exists_mem_of_ne_nil _ hne
    obtain ⟨w, hw, hk⟩ := hd u hu
    have hany : (s.dps.any fun u => u.sweep.any fun w => w.kind == .start) = true := List.any_eq_true.mpr ⟨u, hu, by simp [hw, hk]⟩
    have hstay : leaveCalibrating s = s := if_neg (by simp [hany])
    rw [hstay, hj]

/-- The station CALIBRATING, the image in force and every block begun but the sweeps. -/
def startBegun (im : Image) (d : Half) (clamped : Bool) (s : State) : State :=
  beginSignaller (beginService im d clamped (putJoin (fun j => { j with state := .calibrating }) s))

theorem startBegun_kept (im : Image) (d : Half) (clamped : Bool) (s : State) :
    KeptBut (.sig :: serviceParts) (build im d (putJoin (fun j => { j with state := .calibrating }) s)) (startBegun im d clamped s) :=
  ((beginService_kept im d clamped _).mono (by decide)).trans ((beginSignaller_kept _).mono (by decide))

/-- The sweeps and the way out of CALIBRATING touch the DPs, the join state and the line alone. -/
theorem loadPassed_begun (im : Image) (d : Half) (clamped : Bool) (s : State) :
    KeptBut [.dps, .join, .line] (startBegun im d clamped s) (loadPassed im d clamped s)
      ∧ (loadPassed im d clamped s).line.rxOn = true
      ∧ (∀ u ∈ (loadPassed im d clamped s).dps, u.Unproven s.restartCount ∧ u.Starting)
      ∧ (loadPassed im d clamped s).dps.length = (im.dps.filter fun d => d.owner = im.own).length
      ∧ (loadPassed im d clamped s).join.state = (if (loadPassed im d clamped s).dps = [] then .hailing else .calibrating) := by
  have hbegun := startBegun_kept im d clamped s
  have hdps : (startBegun im d clamped s).dps = ((dpTable im).filter fun d => d.2.owner = im.own).map fun d => DpUnit.build s.restartCount d.1 d.2 :=
    hbegun .dps (by decide)
  have hunproven : ∀ u ∈ (startBegun im d clamped s).dps, u.Unproven s.restartCount := by
    rw [hdps]
    intro u hu
    obtain ⟨e, -, rfl⟩ := List.mem_map.mp hu
    exact ⟨rfl, rfl, rfl, rfl⟩
  have hrx : (startBegun im d clamped s).line.rxOn = true := by
    have hline : (startBegun im d clamped s).line = (beginService im d clamped (putJoin (fun j => { j with state := .calibrating }) s)).line :=
      beginSignaller_kept _ .line (by decide)
    rw [hline, beginService_begun im d clamped _ .line (by decide)]
    rfl
  have hjoin : (startBegun im d clamped s).join.state = .calibrating := congrArg JoinUnit.state (hbegun .join (by decide))
  have hcount : (startBegun im d clamped s).dps.length = (im.dps.filter fun d => d.owner = im.own).length := by
    rw [hdps, List.length_map, ← List.length_map (f := Prod.snd)]
    refine congrArg List.length ?_
    have hsnd : (dpTable im).map Prod.snd = im.dps := List.map_snd_zip (by simp)
    rw [← hsnd, List.filter_map]
    rfl
  obtain ⟨hk, hlen, hall⟩ := startSweeps_start ((startBegun im d clamped s).dps.map (·.slot)) hunproven
  have hpassed : loadPassed im d clamped s = leaveCalibrating
      (((startBegun im d clamped s).dps.map (·.slot)).foldl (fun w slot => startSweep .start slot w) (startBegun im d clamped s)) := rfl
  rw [hpassed]
  generalize ((startBegun im d clamped s).dps.map (·.slot)).foldl (fun w slot => startSweep .start slot w) (startBegun im d clamped s) = w at *
  have hstarting : ∀ u ∈ w.dps, u.Starting := fun u hu => by
    obtain ⟨-, v, hv, hslot, hs⟩ := hall u hu
    exact hs (.inr (hslot ▸ List.mem_map_of_mem hv))
  have hleave : (leaveCalibrating w).dps = w.dps := leaveCalibrating_kept w .dps (by decide)
  rw [hleave, leaveCalibrating_rxOn, hk .line (by decide)]
  refine ⟨(hk.mono (by decide)).trans ((leaveCalibrating_kept w).mono (by decide)), hrx, fun u hu => ⟨(hall u hu).1, hstarting u hu⟩, hlen.trans hcount,
    leaveCalibrating_join ?_ hstarting⟩
  rw [hk .join (by decide)]
  exact hjoin

/-- The parts that the start of a station whose image passes builds and nothing later in the event changes. -/
theorem loadPassed_built (im : Image) (d : Half) (clamped : Bool) (s : State) :
    KeptBut (.dps :: .join :: .sig :: serviceParts) (build im d (putJoin (fun j => { j with state := .calibrating }) s)) (loadPassed im d clamped s) :=
  ((startBegun_kept im d clamped s).mono (by decide)).trans ((loadPassed_begun im d clamped s).1.mono (by decide))

/-- Conditions and the timebases stand as service was begun with them. -/
theorem loadPassed_service (im : Image) (d : Half) (clamped : Bool) (s : State) :
    KeptBut [.dps, .join, .line, .sig, .notices] (beginService im d clamped (putJoin (fun j => { j with state := .calibrating }) s))
      (loadPassed im d clamped s) :=
  ((beginSignaller_kept _).mono (by decide)).trans ((loadPassed_begun im d clamped s).1.mono (by decide))

/-- The present set follows conditions and peers alone (R178). -/
theorem presentSet_congr {s t : State} (hc : t.conds = s.conds) (hp : t.peers = s.peers) : presentSet t = presentSet s := by
  rw [presentSet, presentSet, hc, hp]

theorem exec_loadingEnd_passed {dt : Nat} {s : State} {im : Image} {d : Half} {clamped : Bool} (hp : s.powered = true)
    (hj : s.join.state = .loading) (hph : s.phase.phase = .starting) (h : loadCheck true true s.mem = .passed im d clamped) :
    exec (.loadingEnd dt true none) s
      = .next (conclude (advance dt s) (loadPassed im d clamped (countRestart true none (advance dt s)))) := by
  refine congrArg Host.Outcome.next (event_starting hp ?_ ?_)
  · have hguard : ((advance dt s).join.state == .loading) = true := by rw [advance_join, hj]; rfl
    rw [guarded_apply hguard, plain_apply]
    have hcheck : loadCheck true (readBackOk none (advance dt s)) (advance dt s).mem = .passed im d clamped := h
    rw [hcheck]
    rfl
  · rw [loadPassed_built im d clamped _ .phase (by decide)]
    exact hph

/-- Settles O58: the blocks are begun one after the other, each on parts of its own, and the event's conclusion leaves all of them alone. -/
theorem passedImageStartsTheStation : Obligations.PassedImageStartsTheStation := by
  unfold Obligations.PassedImageStartsTheStation
  intro dt s im d clamped hp hj hph hconds hmem hload
  refine ⟨_, exec_loadingEnd_passed hp hj hph hload, ?_⟩
  generalize hs' : countRestart true none (advance dt s) = s'
  generalize hs0 : putJoin (fun j => { j with state := JoinState.calibrating }) s' = s0
  generalize hw : loadPassed im d clamped s' = w
  have hk := conclude_kept (advance dt s) w
  have hwatched := conclude_watched (advance dt s) w
  generalize conclude (advance dt s) w = t at hk hwatched
  have hbuilt := loadPassed_built im d clamped s'
  have hservice := loadPassed_service im d clamped s'
  obtain ⟨hbegun, hrx, hdps, hlen, hjoin⟩ := loadPassed_begun im d clamped s'
  rw [hw] at hbuilt hservice hbegun hrx hdps hlen hjoin
  rw [hs0] at hbuilt hservice
  have hlast : KeptBut (.dps :: .join :: .firstFault :: .sig :: serviceParts) (build im d s0) t :=
    (hbuilt.mono (by decide)).trans (hk.mono (by decide))
  have hdpsEq : t.dps = w.dps := hk .dps (by decide)
  have hcfg : t.cfg = im := hlast .cfg (by decide)
  have hcount : t.restartCount = Memory.read s.mem 0 + 1 := by
    rw [hlast .restartCount (by decide), ← hs0, ← hs']
    rfl
  have hcount' : s'.restartCount = t.restartCount := by rw [hcount, ← hs']; rfl
  have hmemEq : t.mem = Memory.write s.mem 0 (Memory.read s.mem 0 + 1) := by
    rw [hlast .mem (by decide), ← hs0, ← hs']
    rfl
  have hsections : t.sections = (List.range (3 * im.tracks)).map (Sect.start im.startRestoring) := hlast .sections (by decide)
  have hpeers : t.peers = (otherStations im).map Peer.unheard := hlast .peers (by decide)
  have hms : s0.clock.ms = (advance dt s).clock.ms := by rw [← hs0, ← hs']; rfl
  have hnone : s0.conds = [] := by rw [← hs0, ← hs']; exact hconds
  obtain ⟨hunknown, hclamped⟩ := beginService_conds (d := d) (clamped := clamped) hnone (tracks_of_passed hload)
  obtain ⟨hpost, hcold, hkept⟩ := beginService_lights im d clamped s0
  have hprove := beginService_begun im d clamped s0
  have hsignaller : KeptBut [.dps, .join, .line] (beginSignaller (beginService im d clamped s0)) w := by
    rw [← hs0]
    exact hbegun
  generalize beginService im d clamped s0 = v at hsignaller hunknown hclamped hpost hcold hkept hprove hservice
  have hcond (c : CondId) : hasCond t c = hasCond v c :=
    hasCond_congr ((hk .conds (by decide)).1.trans (hservice .conds (by decide)).1) c
  have hcfgv : t.cfg = v.cfg := (hk .cfg (by decide)).trans (hservice .cfg (by decide))
  have hlights : t.lights = v.lights := (hk .lights (by decide)).trans (hservice .lights (by decide))
  have hisPost : isPost t = isPost v := by rw [isPost, isPost, ownRoles, ownRoles, hcfgv]
  have hsig : w.sig = (beginSignaller v).sig := hsignaller .sig (by decide)
  have hnotices : w.notices = (beginSignaller v).notices := hsignaller .notices (by decide)
  have hhas : hasSignaller t = hasSignaller v := by rw [hasSignaller, hasSignaller, hcfgv]
  have hvms : v.clock.ms = (advance dt s).clock.ms := by rw [hprove .clock (by decide)]; exact hms
  have hpresent : presentSet v = presentSet t :=
    (presentSet_congr ((hk .conds (by decide)).1.trans (hservice .conds (by decide)).1)
      ((hk .peers (by decide)).trans (hservice .peers (by decide)))).symm
  refine ⟨hcount, ?_, fun a ha => ?_, hcfg, hlast .digest (by decide), hsections, fun hr r hrs => ?_, fun hr r hrs => ?_, fun p hp => ?_, fun u hu => ?_,
    ?_, ?_, ?_, ?_, ?_, ?_, ?_, ?_, fun h => ?_, ?_, fun h => ?_, fun h => ?_⟩
  · rw [hmemEq, hcount]
    exact Memory.read_write_same hmem
  · rw [hmemEq]
    exact Memory.read_write_other ha
  · rw [hsections] at hrs
    obtain ⟨i, hi, rfl⟩ := List.mem_map.mp hrs
    exact ⟨by rw [hr]; rfl, (hcond _).trans (hunknown hr i (List.mem_range.mp hi))⟩
  · rw [hsections] at hrs
    obtain ⟨i, -, rfl⟩ := List.mem_map.mp hrs
    rw [hr]
    rfl
  · rw [hpeers] at hp
    obtain ⟨e, he, rfl⟩ := List.mem_map.mp hp
    exact ⟨rfl, otherStations_ne e he⟩
  · obtain ⟨⟨hstate, hepoch, hinn, hout⟩, hstart⟩ := hdps u (hdpsEq ▸ hu)
    exact ⟨hstate, hepoch.trans hcount', hinn, hout, hstart⟩
  · rw [hdpsEq, hlen]
  · exact hwatched.line_rxOn.trans hrx
  · rw [hlast .phase (by decide), ← hs0, ← hs']
    exact hph
  · exact (hcond _).trans hclamped
  · rw [hk .join (by decide), hdpsEq]
    exact hjoin
  · rw [hwatched.flash_mode, hservice .flash (by decide), hprove .flash (by decide), ← hms]
    rfl
  · rw [hlights, hisPost, hcold, hms]
  · have hreport : isReport t = isReport (beginReception (build im d s0)) := by
      have hown : t.cfg = (beginReception (build im d s0)).cfg := hcfg
      rw [isReport, isReport, ownRoles, ownRoles, hown]
    rw [hwatched.dci_coldStart, hservice .dci (by decide), hprove .dci (by decide), hreport, ← hms]
    rfl
  · rw [hlights]
    exact hpost (hisPost ▸ h)
  · rw [hlast .barrier (by decide), ← hs0, ← hs']
    rfl
  · obtain ⟨hstarted, hkeep, hset, hdue⟩ := beginSignaller_line (s := v) (hhas ▸ h)
    refine ⟨?_, ?_, ?_, ?_⟩
    · rw [hwatched.sig_started, hsig, hstarted]
    · rw [hwatched.notices_kept, hnotices, hkeep]
    · rw [hwatched.notices_present, hnotices, hset, hpresent]
    · rw [hwatched.sig_due, hsig, hdue, hvms]
  · have hsame : beginSignaller v = v := if_neg (by rw [← hhas, h]; decide)
    rw [hsame] at hsig hnotices
    refine ⟨?_, ?_⟩
    · rw [hwatched.sig_started, hsig, hprove .sig (by decide), ← hs0, ← hs']
      rfl
    · rw [hwatched.notices_kept, hnotices, hkept, ← hs0, ← hs']
      rfl

end Sys2Proof.Machine
end

section
/-! ## The bounds of the conclusion and of the signals (R106) -/

namespace Sys2Proof.Machine

/-- Settles O6 by the frame of the conclusion and the frame of the handling of signals. -/
theorem conclusionAndSignalsAreBounded : Obligations.ConclusionAndSignalsAreBounded := by
  unfold Obligations.ConclusionAndSignalsAreBounded
  exact ⟨fun _ _ h => conclude_concluded h, drain_kept⟩

end Sys2Proof.Machine
end

section
/-! ## The law of the transmit queue (R66 to R71): every operation of the line controller keeps it, and so does every step -/

namespace Sys2Proof.Machine

/-! ### States that hold the same frames -/

/-- Two states hold the same frames: the same queue and orders, and the same frame in flight. -/
structure SameFrames (s t : State) : Prop where
  queue : t.line.queue = s.line.queue
  nextOrd : t.line.nextOrd = s.line.nextOrd
  flight : t.line.flight = s.line.flight

theorem SameFrames.of_line {s t : State} (h : t.line = s.line) : SameFrames s t := ⟨by rw [h], by rw [h], by rw [h]⟩

theorem SameFrames.of_kept {l : List Part} {s t : State} (hk : KeptBut l s t) (hl : Part.line ∉ l) : SameFrames s t := .of_line (hk .line hl)

theorem mapLine_sameFrames (f : LineRec → LineRec) (l : Line) (s : State) : SameFrames s (mapLine f l s) := by
  cases l <;> exact ⟨rfl, rfl, rfl⟩

theorem followQuiet_sameFrames (s : State) : SameFrames s (followQuiet s) := by
  obtain ⟨hq, hf, hn⟩ := followQuiet_queue s
  exact ⟨hq, hn, hf⟩

/-- The queue law looks at the frames alone. -/
theorem QueueLaw.congr {s t : State} (h : SameFrames s t) (hs : QueueLaw s) : QueueLaw t := by
  unfold QueueLaw
  rw [h.queue, h.nextOrd, h.flight]
  exact hs

theorem QueueLaw.of_line {s t : State} (h : t.line = s.line) (hs : QueueLaw s) : QueueLaw t := hs.congr (.of_line h)

theorem QueueLaw.of_kept {l : List Part} {s t : State} (hk : KeptBut l s t) (hl : Part.line ∉ l) (hs : QueueLaw s) : QueueLaw t :=
  hs.of_line (hk .line hl)

theorem QueueLaw.ite {c : Prop} [Decidable c] {s t : State} (ht : QueueLaw t) (hs : QueueLaw s) : QueueLaw (if c then t else s) := by
  split
  · exact ht
  · exact hs

/-- A line controller without frames is lawful. -/
theorem queueLaw_empty {s : State} (hq : s.line.queue = []) (hf : s.line.flight = none) : QueueLaw s := by
  simp [QueueLaw, hq, hf, services]

/-! ### Keys and kinds (R69) -/

/-- A SERVICE key is the key of a SERVICE frame. -/
theorem TxWhat.kind_eq_service (w : TxWhat) : w.kind = .service ↔ ∃ sec, w.key = .service sec := by
  cases w <;> simp [TxWhat.kind, TxWhat.key]

theorem queuedUnder_eq_none {q : List TxItem} {k : TxKey} : queuedUnder q k = none ↔ ∀ i ∈ q, i.what.key ≠ k := by
  simp [queuedUnder]

theorem services_sublist {p q : List TxItem} (h : p.Sublist q) : (services p).length ≤ (services q).length := (h.filter _).length_le

theorem services_append_single (q : List TxItem) (i : TxItem) :
    (services (q ++ [i])).length = (services q).length + if i.what.kind = .service then 1 else 0 := by
  by_cases h : i.what.kind = .service <;> simp [services, h]

theorem oldest_eq_none {q : List TxItem} : oldest q = none ↔ q = [] := by
  cases q with
  | nil => simp [oldest]
  | cons x rest =>
    simp only [oldest, reduceCtorEq, iff_false]
    split
    · simp
    · split <;> simp

theorem oldest_mem {q : List TxItem} {i : TxItem} (h : oldest q = some i) : i ∈ q := by
  induction q generalizing i with
  | nil => simp [oldest] at h
  | cons x rest ih =>
    unfold oldest at h
    split at h
    · exact Option.some.inj h ▸ List.mem_cons_self
    next y hy =>
      split at h
      · exact Option.some.inj h ▸ List.mem_cons_of_mem _ (ih hy)
      · exact Option.some.inj h ▸ List.mem_cons_self

/-- A SERVICE frame taken out of the queue leaves one fewer. -/
theorem services_without {q : List TxItem} {o : TxItem} (h : o ∈ services q) :
    (services (q.filter fun i => i.ord ≠ o.ord)).length < (services q).length := by
  unfold services at *
  rw [List.filter_comm]
  exact List.length_filter_lt_length_iff_exists.2 ⟨o, h, by simp⟩

/-! ### Operations on the queue -/

/-- A frame changed in its place keeps the law where it keeps its key and its order. -/
theorem QueueLaw.mapQueue {g : TxItem → TxItem} (hk : ∀ i, (g i).what.key = i.what.key) (ho : ∀ i, (g i).ord = i.ord) {s : State} (hs : QueueLaw s) :
    QueueLaw (putQueue (s.line.queue.map g) s) := by
  obtain ⟨hkeys, hsvc, hords, hlt, hflight⟩ := hs
  have hkind : ∀ i, ((g i).what.kind == FrameKind.service) = (i.what.kind == .service) := fun i => by
    rw [Bool.eq_iff_iff, beq_iff_eq, beq_iff_eq, TxWhat.kind_eq_service, TxWhat.kind_eq_service, hk]
  refine ⟨?_, ?_, ?_, ?_, ?_⟩
  · simpa only [putQueue, List.map_map, Function.comp_def, hk] using hkeys
  · simpa only [services, putQueue, List.filter_map, List.length_map, Function.comp_def, hkind] using hsvc
  · simpa only [putQueue, List.map_map, Function.comp_def, ho] using hords
  · exact List.forall_mem_map.2 fun i hi => (ho i).symm ▸ hlt i hi
  · intro f hf
    obtain ⟨hnext, hne⟩ := hflight f hf
    exact ⟨hnext, List.forall_mem_map.2 fun i hi => (ho i).symm ▸ hne i hi⟩

/-- Frames taken out of the queue keep the law. -/
theorem QueueLaw.sublist {q : List TxItem} {s : State} (hq : q.Sublist s.line.queue) (hs : QueueLaw s) : QueueLaw (putQueue q s) := by
  obtain ⟨hkeys, hsvc, hords, hlt, hflight⟩ := hs
  refine ⟨hkeys.sublist (hq.map _), (services_sublist hq).trans hsvc, hords.sublist (hq.map _), fun i hi => hlt i (hq.subset hi), fun f hf => ?_⟩
  obtain ⟨hnext, hne⟩ := hflight f hf
  exact ⟨hnext, fun i hi => hne i (hq.subset hi)⟩

/-- The frame in flight keeps the law where its order has not changed. -/
theorem QueueLaw.putFlight {s t : State} (hq : t.line.queue = s.line.queue) (hn : t.line.nextOrd = s.line.nextOrd)
    (hf : ∀ f, t.line.flight = some f → ∃ g, s.line.flight = some g ∧ f.item.ord = g.item.ord) (hs : QueueLaw s) : QueueLaw t := by
  obtain ⟨hkeys, hsvc, hords, hlt, hflight⟩ := hs
  unfold QueueLaw
  rw [hq, hn]
  refine ⟨hkeys, hsvc, hords, hlt, fun f hft => ?_⟩
  obtain ⟨g, hg, hord⟩ := hf f hft
  exact hord ▸ hflight g hg

/-- A frame whose key is free, with an order of its own, keeps the law at the end of the queue. -/
theorem QueueLaw.append {i : TxItem} {s t : State} (hkey : queuedUnder s.line.queue i.what.key = none)
    (hsvc : i.what.kind = .service → (services s.line.queue).length < 2) (hq : t.line.queue = s.line.queue ++ [i])
    (hfresh : ∀ j ∈ s.line.queue, j.ord ≠ i.ord) (hi : i.ord < t.line.nextOrd) (hn : s.line.nextOrd ≤ t.line.nextOrd)
    (hf : ∀ f, t.line.flight = some f → s.line.flight = some f ∧ i.ord ≠ f.item.ord) (hs : QueueLaw s) : QueueLaw t := by
  obtain ⟨hkeys, htwo, hords, hlt, hflight⟩ := hs
  have hnodup {β : Type} (g : TxItem → β) (h : (s.line.queue.map g).Nodup) (hne : ∀ j ∈ s.line.queue, g j ≠ g i) :
      ((s.line.queue ++ [i]).map g).Nodup := by
    rw [List.map_append]
    refine List.nodup_append.2 ⟨h, List.nodup_singleton _, ?_⟩
    intro a ha b hb
    obtain ⟨j, hj, rfl⟩ := List.mem_map.1 ha
    rw [List.mem_singleton.1 hb]
    exact hne j hj
  unfold QueueLaw
  rw [hq]
  refine ⟨hnodup _ hkeys (queuedUnder_eq_none.1 hkey), ?_, hnodup _ hords hfresh, ?_, ?_⟩
  · rw [services_append_single]
    split
    next h => exact hsvc h
    · exact htwo
  · intro j hj
    rcases List.mem_append.1 hj with hj | hj
    · exact (hlt j hj).trans_le hn
    · exact List.mem_singleton.1 hj ▸ hi
  · intro f hft
    obtain ⟨hfs, hne⟩ := hf f hft
    obtain ⟨hnext, hothers⟩ := hflight f hfs
    refine ⟨hnext.trans_le hn, fun j hj => ?_⟩
    rcases List.mem_append.1 hj with hj | hj
    · exact hothers j hj
    · exact List.mem_singleton.1 hj ▸ hne

theorem enqueue_queueLaw {w : TxWhat} {s : State} (hkey : queuedUnder s.line.queue w.key = none)
    (hsvc : w.kind = .service → (services s.line.queue).length < 2) (hs : QueueLaw s) : QueueLaw (enqueue w s) := by
  obtain ⟨-, -, -, hlt, hflight⟩ := id hs
  exact hs.append (i := { what := w, attempts := 0, seq := none, ord := s.line.nextOrd, queuedAt := s.clock.us }) hkey hsvc rfl
    (fun j hj => (hlt j hj).ne) (Nat.lt_succ_self _) (Nat.le_succ _) fun f hf => ⟨hf, (hflight f hf).1.ne'⟩

/-- A request keeps the law: it takes the place of the frame of its key, or its key is free; a third SERVICE frame drives out the oldest (R69). -/
theorem request_queueLaw {w : TxWhat} {s : State} (hs : QueueLaw s) : QueueLaw (request w s) := by
  unfold request
  split
  case isFalse => exact hs
  split
  next =>
    refine hs.mapQueue (fun i => ?_) fun i => ?_
    · split
      next h => exact h.symm
      · rfl
    · split <;> rfl
  next hkey =>
    split
    next hfull =>
      have htwo := hs.2.1
      split
      next hnone => simp [oldest_eq_none.1 hnone] at hfull
      next o ho =>
        refine QueueLaw.of_kept (raiseCond_kept _ _) (by decide) (enqueue_queueLaw ?_ (fun _ => ?_) (hs.sublist List.filter_sublist))
        · exact queuedUnder_eq_none.2 fun i hi => queuedUnder_eq_none.1 hkey i (List.mem_of_mem_filter hi)
        · exact (services_without (oldest_mem ho)).trans_le htwo
    next hroom => exact enqueue_queueLaw hkey (fun h => by simpa [h] using hroom) hs

theorem queueStatus_queueLaw {s : State} (hs : QueueLaw s) : QueueLaw (queueStatus s) :=
  QueueLaw.congr (s := request .status s) ⟨rfl, rfl, rfl⟩ (request_queueLaw hs)

theorem askStatus_queueLaw {s : State} (hs : QueueLaw s) : QueueLaw (askStatus s) := by
  have hheld : QueueLaw { s with line := { s.line with heldBack := true } } := hs.congr ⟨rfl, rfl, rfl⟩
  unfold askStatus
  split
  · split
    · exact .ite (queueStatus_queueLaw hs) hheld
    · exact hheld
  · exact hs

/-! ### An attempt (R66 to R68) -/

theorem LineUnit.bumpSeq_nextOrd (u : LineUnit) (k : FrameKind) : (u.bumpSeq k).nextOrd = u.nextOrd := by cases k <;> rfl

/-- What an attempt leaves of the line controller: the frame out of the queue, the orders as they were, and in flight the frame itself or, where no
body can be built, what was there. -/
theorem startAttempt_frames (i : TxItem) (s : State) :
    (startAttempt i s).line.queue = (s.line.queue.filter fun j => j.ord ≠ i.ord) ∧ (startAttempt i s).line.nextOrd = s.line.nextOrd
      ∧ ((startAttempt i s).line.flight = s.line.flight ∨ ∃ f, (startAttempt i s).line.flight = some f ∧ f.item.ord = i.ord) := by
  refine ⟨startAttempt_queue i s, ?_⟩
  unfold startAttempt
  split
  · exact ⟨rfl, .inl rfl⟩
  · refine ⟨?_, .inr ⟨_, rfl, rfl⟩⟩
    dsimp only
    split
    · exact LineUnit.bumpSeq_nextOrd _ _
    · rfl

/-- An attempt moves its frame from the queue into flight, with its order. -/
theorem startAttempt_queueLaw {i : TxItem} {s : State} (hi : i ∈ s.line.queue) (hs : QueueLaw s) : QueueLaw (startAttempt i s) := by
  obtain ⟨hq, hn, hf⟩ := startAttempt_frames i s
  have hless := hs.sublist (q := s.line.queue.filter fun j => j.ord ≠ i.ord) List.filter_sublist
  rcases hf with hf | ⟨f, hf, hord⟩
  · exact QueueLaw.congr (s := putQueue _ s) ⟨hq, hn, hf⟩ hless
  · obtain ⟨hkeys, hsvc, hords, hlt, -⟩ := hless
    unfold QueueLaw
    rw [hq, hn, hf]
    refine ⟨hkeys, hsvc, hords, hlt, fun g hg => ?_⟩
    cases hg
    rw [hord]
    exact ⟨hs.2.2.2.1 i hi, fun j hj => of_decide_eq_true (List.mem_filter.1 hj).2⟩

theorem contend_queueLaw {s : State} (hs : QueueLaw s) : QueueLaw (contend s) := by
  unfold contend
  split
  · split
    · exact hs
    next i hi => exact .ite (startAttempt_queueLaw (chosen_mem hi) hs) hs
  · exact hs

theorem endFlight_queueLaw {s : State} (hs : QueueLaw s) : QueueLaw (endFlight s) :=
  QueueLaw.putFlight (s := s) (t := endFlight s) rfl rfl (fun _ hf => by cases hf) hs

theorem statusLeft_sameFrames (w : TxWhat) (t : Time) (s : State) : SameFrames s (statusLeft w t s) := by
  unfold statusLeft
  split <;> exact ⟨rfl, rfl, rfl⟩

theorem frameSent_queueLaw {f : Flight} {s : State} (hs : QueueLaw s) : QueueLaw (frameSent f s) :=
  ((endFlight_queueLaw hs).of_kept (clearCond_kept _ _) (by decide)).congr (statusLeft_sameFrames _ _ _)

theorem frameDropped_queueLaw {f : Flight} {s : State} (hs : QueueLaw s) : QueueLaw (frameDropped f s) :=
  ((endFlight_queueLaw hs).of_kept (raiseCond_kept _ _) (by decide)).congr (statusLeft_sameFrames _ _ _)

/-- The failed frame of an attempt hands its count to a frame of its key, or returns with its order, which the law has kept free (R68). -/
theorem frameRetried_queueLaw {f : Flight} {s : State} (hf : s.line.flight = some f)
    (hplace : queuedUnder s.line.queue f.item.what.key = none → f.item.what.kind = .service → (services s.line.queue).length < 2) (hs : QueueLaw s) :
    QueueLaw (frameRetried f s) := by
  have hended : QueueLaw (setLatch .txRetrySeen (endFlight s)) := (endFlight_queueLaw hs).of_line rfl
  unfold frameRetried
  extract_lets n s1
  split
  · refine hended.mapQueue (fun i => ?_) fun i => ?_ <;> split <;> rfl
  next hkey =>
    obtain ⟨hnext, hne⟩ := hs.2.2.2.2 f hf
    exact hended.append (i := { f.item with attempts := n }) hkey (hplace hkey) rfl hne hnext le_rfl fun g hg => by cases hg

theorem attemptFailed_queueLaw {f : Flight} {s : State} (hf : s.line.flight = some f) (hs : QueueLaw s) : QueueLaw (attemptFailed f s) := by
  unfold attemptFailed
  split
  · split
    next hsome => exact frameRetried_queueLaw hf (fun hkey => by simp [hkey] at hsome) hs
    · exact endFlight_queueLaw hs
  refine .ite (frameDropped_queueLaw hs) ?_
  split
  · exact frameDropped_queueLaw hs
  next hroom =>
    refine frameRetried_queueLaw hf (fun hkey hsvc => ?_) hs
    simpa [noPlace, hkey, hsvc] using hroom

/-! ### The end of an event -/

theorem conclude_queueLaw {s0 s1 : State} (hs : QueueLaw s1) : QueueLaw (conclude s0 s1) := by
  unfold conclude
  extract_lets s2 s3 s4 s5
  have h2 : QueueLaw s2 := ((hs.of_kept (chooseLeader_kept _) (by decide)).of_kept (completeFirstFault_kept _ _) (by decide)).of_kept
    (judgeDcis_kept _) (by decide)
  have h3 : QueueLaw s3 := .ite (askStatus_queueLaw h2) h2
  have h4 : QueueLaw s4 := h3.congr (followQuiet_sameFrames s3)
  have h5 : QueueLaw s5 := .ite ((contend_queueLaw h4).congr (followQuiet_sameFrames _)) h4
  exact h5.of_kept (transmit_kept s5) (by decide)

/-! ### Joining (R71, R88 to R92) -/

theorem enterHailing_queueLaw {s : State} (hs : QueueLaw s) : QueueLaw (enterHailing s) := request_queueLaw (hs.of_line rfl)

theorem leaveCalibrating_queueLaw {s : State} (hs : QueueLaw s) : QueueLaw (leaveCalibrating s) := .ite (enterHailing_queueLaw hs) hs

theorem enterJoined_queueLaw {s : State} (hs : QueueLaw s) : QueueLaw (enterJoined s).1 := by
  have hjoined : QueueLaw (putJoin (fun j => { j with state := .joined, windowStart := none }) s) := hs.of_line rfl
  exact queueStatus_queueLaw (hjoined.of_kept (KeptBut.foldl _ (fun t n => setPeerState_kept n .stale t) _ _) (by decide))

/-- At a lockout frames leave the queue, and the frame in flight keeps its order (R71). -/
theorem enterLockedOut_queueLaw {s : State} (hs : QueueLaw s) : QueueLaw (enterLockedOut s).1 := by
  unfold enterLockedOut
  extract_lets s1 u s2
  have h1 : QueueLaw s1 := hs.of_line rfl
  have h2 : QueueLaw s2 := QueueLaw.putFlight (s := putQueue (s1.line.queue.filter fun i => i.what == .hail) s1) rfl rfl (fun f hf => by
    obtain ⟨g, hg, rfl⟩ := Option.map_eq_some_iff.1 hf
    exact ⟨g, hg, rfl⟩) (h1.sublist List.filter_sublist)
  split
  · exact (h2.of_kept (applyPattern_kept _ _ _) (by decide)).of_kept (handCommand_kept _ _) (by decide)
  · exact h2

theorem endJoining_queueLaw {s : State} (hs : QueueLaw s) : QueueLaw (endJoining s).1 := by
  unfold endJoining
  split
  · exact enterJoined_queueLaw hs
  · exact enterLockedOut_queueLaw hs

theorem testCompletion_queueLaw {s : State} (hs : QueueLaw s) : QueueLaw (testCompletion s).1 := by
  unfold testCompletion
  split
  · exact endJoining_queueLaw hs
  · exact hs

theorem answerHail_queueLaw {n : Nat} {s : State} (hs : QueueLaw s) : QueueLaw (answerHail n s) := by
  unfold answerHail
  split
  all_goals first
    | exact hs
    | exact request_queueLaw hs

end Sys2Proof.Machine
end

section
/-! ## Every step keeps the law of the transmit queue -/

namespace Sys2Proof.Machine

/-! ### Work that queues frames (R20, R60, R77, R91) -/

theorem countAxle_queueLaw {u : DpUnit} {a : Axle} {s : State} (hs : QueueLaw s) : QueueLaw (countAxle u a s) := by
  unfold countAxle
  extract_lets v s1 cross now tm speed measured s2 s3 s4 s5
  have h3 : QueueLaw s3 := ((hs.of_line rfl).of_kept (mapSects_kept _ _ s1) (by decide)).of_kept (mapSect_kept _ _ s2) (by decide)
  have h4 : QueueLaw s4 := .ite (h3.of_kept (noteSpeed_kept _ _ _ _) (by decide)) h3
  have h5 : QueueLaw s5 := .ite (QueueLaw.of_kept (raiseCond_kept _ _) (by decide) (h4.of_kept (setLatch_kept _ _) (by decide))) h4
  exact .ite (request_queueLaw h5) h5

theorem takeMove_queueLaw {u : DpUnit} {m : Recognised} {s : State} (hs : QueueLaw s) : QueueLaw (takeMove u m s) := by
  unfold takeMove
  extract_lets u1 s1
  have h1 : QueueLaw s1 := hs.of_line rfl
  split
  · exact h1
  · exact countAxle_queueLaw h1

theorem takeEdges_queueLaw {slot : Slot} {first second : Bool} {s : State} (hs : QueueLaw s) : QueueLaw (takeEdges slot first second s) := by
  unfold takeEdges
  split
  · exact hs
  · extract_lets t u1 p
    split
    · exact hs.of_line rfl
    split
    · split
      · exact hs.of_line rfl
      · exact (hs.of_kept (putDp_kept _ _) (by decide)).of_kept (unorderedEvent_kept _ _ _) (by decide)
      · exact takeMove_queueLaw hs
    · exact takeMove_queueLaw hs

theorem takeJoin_queueLaw {a : Accepted} {b : JoinBody} {s : State} (hs : QueueLaw s) : QueueLaw (takeJoin a b s) :=
  hs.of_kept (takeJoin_kept a b s) (by decide)

theorem takeStatus_queueLaw {a : Accepted} {b : StatusBody} {s : State} (hs : QueueLaw s) : QueueLaw (takeStatus a b s).1 := by
  unfold takeStatus
  split
  · exact hs
  next p hp =>
    extract_lets s1
    have h1 : QueueLaw s1 := .ite (hs.of_kept (enterStatus_kept a b p s) (by decide))
      ((hs.of_kept (mapPeer_kept _ _ s) (by decide)).of_kept (setPeerState_kept _ _ _) (by decide))
    exact testCompletion_queueLaw (h1.of_kept (setVerdict_kept _ _ _) (by decide))

theorem attemptEnd_queueLaw {f : Flight} {s : State} (hf : s.line.flight = some f) (hs : QueueLaw s) : QueueLaw (attemptEnd f s).1 := by
  unfold attemptEnd
  split
  · unfold attemptSent
    extract_lets s1
    have h1 : QueueLaw s1 := frameSent_queueLaw hs
    split
    · exact testCompletion_queueLaw (h1.of_line rfl)
    · exact h1
  · exact attemptFailed_queueLaw hf hs

theorem resetAct_queueLaw {sec : Nat} {kind : ResetKind} {s : State} (hs : QueueLaw s) : QueueLaw (resetAct sec kind s) := by
  unfold resetAct
  split
  · exact hs.of_line rfl
  · exact request_queueLaw ((hs.of_kept (putPort_kept _ _ s) (by decide)).of_kept (applyReset_kept _ _ _) (by decide))

theorem readback_queueLaw {l : Line} {remains : Bool} {s : State} (hs : QueueLaw s) : QueueLaw (readback l remains s) := by
  have hstopped : QueueLaw { s with line := { s.line with flight := s.line.flight.map fun f => f.stop l } } :=
    QueueLaw.putFlight (s := s) rfl rfl (fun f hf => by
      obtain ⟨g, hg, rfl⟩ := Option.map_eq_some_iff.1 hf
      exact ⟨g, hg, by cases l <;> rfl⟩) hs
  exact (hstopped.congr (mapLine_sameFrames _ l _)).of_line rfl

/-- Reception moves no frame of the queue: line records, the copy filter and the hand-over are other fields of the line controller. -/
theorem lineFails_sameFrames (l : Line) (s : State) : SameFrames s (lineFails l s) := by
  obtain ⟨hq, hn, hf⟩ := mapLine_sameFrames (fun r => { r with health := .failed, history := [], qualifying := 0 }) l s
  have hline := raiseCond_kept (lineCond (setLatch (dropLatch l) (mapLine (fun r => { r with health := .failed, history := [], qualifying := 0 }) l s)) l)
    (setLatch (dropLatch l) (mapLine (fun r => { r with health := .failed, history := [], qualifying := 0 }) l s)) .line (by decide)
  exact ⟨(congrArg _ hline).trans hq, (congrArg _ hline).trans hn, (congrArg _ hline).trans hf⟩

theorem lineCrcFailure_queueLaw {l : Line} {s : State} (hs : QueueLaw s) : QueueLaw (lineCrcFailure l s) := by
  unfold lineCrcFailure
  extract_lets s1
  have h1 : QueueLaw s1 := (hs.of_kept (setLatch_kept _ s) (by decide)).congr (mapLine_sameFrames _ l _)
  have hfails : QueueLaw (lineFails l s1) := h1.congr (lineFails_sameFrames l s1)
  split
  · exact .ite hfails h1
  · exact hfails
  · exact h1

theorem lineValid_queueLaw {l : Line} {s : State} (hs : QueueLaw s) : QueueLaw (lineValid l s) := by
  unfold lineValid
  extract_lets s1 s2
  have h1 : QueueLaw s1 := hs.congr (mapLine_sameFrames _ l s)
  have h2 : QueueLaw s2 := .ite (h1.of_kept (clearCond_kept _ _) (by decide)) h1
  exact .ite (h2.congr (lineFails_sameFrames _ _)) h2

theorem receive_queueLaw {l : Line} {bytes : List Byte} {s : State} (hs : QueueLaw s) : QueueLaw (receive l bytes s) := by
  unfold receive
  split
  · exact lineCrcFailure_queueLaw hs
  · exact lineCrcFailure_queueLaw hs
  · exact hs.congr (mapLine_sameFrames _ l s)
  · extract_lets s1
    have h1 : QueueLaw s1 := lineValid_queueLaw hs
    split
    · exact h1
    split
    · refine h1.congr ?_
      unfold secondCopy
      repeat' split
      all_goals exact ⟨rfl, rfl, rfl⟩
    · exact QueueLaw.congr (s := s1) ⟨rfl, rfl, rfl⟩ h1

/-- The end of LOADING queues a HAIL where the station is to join or is locked out by its image (R88, R92). -/
theorem loaded_queueLaw (o : LoadOutcome) {s : State} (hs : QueueLaw s) : QueueLaw (loaded o s) := by
  have service (im : Image) (d : Half) (c : Bool) {w : State} (hw : QueueLaw w) : QueueLaw (beginService im d c w) := by
    have begun : QueueLaw (beginProving (beginReception (build im d w))) := QueueLaw.congr (s := w) ⟨rfl, rfl, rfl⟩ hw
    have outputs : QueueLaw (startOutputs (beginProving (beginReception (build im d w)))) :=
      .ite (begun.of_kept (applyPattern_kept _ _ _) (by decide)) begun
    have conds : QueueLaw (sectionStartConds (startOutputs (beginProving (beginReception (build im d w))))) :=
      outputs.of_kept (l := [.conds, .notices]) (KeptBut.foldl _ (fun _ _ => raiseCond_kept _ _) _ _) (by decide)
    exact .ite (conds.of_kept (raiseCond_kept _ _) (by decide)) conds
  cases o with
  | passed im d c =>
    have signaller {w : State} (hw : QueueLaw w) : QueueLaw (beginSignaller w) := .ite (QueueLaw.of_kept (noticeSync_kept _) (by decide) (hw.of_line rfl)) hw
    exact leaveCalibrating_queueLaw ((signaller (service im d c (hs.of_kept (putJoin_kept _ s) (by decide)))).of_kept
      (KeptBut.foldl _ (fun w slot => startSweep_kept .start slot w) _ _) (by decide))
  | declared im d c => exact request_queueLaw ((service im d c (hs.of_kept (putJoin_kept _ s) (by decide))).of_kept (raiseCond_kept _ _) (by decide))
  | blind own => exact (hs.of_kept (putJoin_kept _ s) (by decide)).of_kept (raiseCond_kept _ _) (by decide)

/-! ### The work of the commands -/

/-- Work that keeps the queue law. -/
def KeepsQueueLaw (f : State → Work) : Prop := ∀ s, QueueLaw s → QueueLaw (f s).1

namespace KeepsQueueLaw

theorem event {f : State → Work} (hf : KeepsQueueLaw f) (dt : Nat) {s : State} (hs : QueueLaw s) : QueueLaw (event dt s f) := by
  have ha : QueueLaw (advance dt s) := hs.of_line rfl
  cases hp : s.powered with
  | false => rwa [event_unpowered hp]
  | true =>
    rw [event_eq hp]
    exact conclude_queueLaw ((hf _ ha).of_kept (drain_kept _ _ _) (by decide))

theorem plain {f : State → State} (hf : ∀ s, QueueLaw s → QueueLaw (f s)) : KeepsQueueLaw (plain f) := hf

theorem guarded {f : State → Work} (hf : KeepsQueueLaw f) (c : State → Bool) : KeepsQueueLaw (guarded c f) := fun s hs => by
  unfold Machine.guarded
  split
  · exact hf s hs
  · exact hs

/-- Work that leaves the line controller alone. -/
theorem of_line {f : State → Work} (hf : ∀ s, (f s).1.line = s.line) : KeepsQueueLaw f := fun s hs => hs.of_line (hf s)

theorem of_kept {l : List Part} {f : State → Work} (hf : ∀ s, KeptBut l s (f s).1) (hl : Part.line ∉ l) : KeepsQueueLaw f :=
  of_line fun s => hf s .line hl

theorem takeCommand {cmd : PortCmd} {act : State → State} (hf : ∀ s, QueueLaw s → QueueLaw (act s)) :
    KeepsQueueLaw (Machine.plain (takeCommand cmd act)) := fun s hs => by
  unfold Machine.plain Machine.takeCommand
  split
  · exact hs.of_line rfl
  split
  · exact hs.of_line rfl
  · exact hf s hs

/-- A command of the maintainer port that acts elsewhere than on the line controller. -/
theorem takeCommand_still {cmd : PortCmd} {act : State → State} (hf : ∀ s, (act s).line = s.line) :
    KeepsQueueLaw (Machine.plain (Machine.takeCommand cmd act)) := takeCommand fun s hs => hs.of_line (hf s)

theorem answered {cmd : PortCmd} {r : State → Reply} : KeepsQueueLaw (Machine.plain (answered cmd r)) := takeCommand_still fun _ => rfl

end KeepsQueueLaw

/-! ### Every command -/

/-- A command that keeps the queue law. -/
def KeepsQueue (c : Instr) : Prop := ∀ s, QueueLaw s → ∃ t, exec c s = .next t ∧ QueueLaw t

theorem KeepsQueue.of_event {c : Instr} {dt : Nat} {f : State → Work} (he : ∀ s, exec c s = .next (event dt s f)) (hf : KeepsQueueLaw f) :
    KeepsQueue c := fun s hs => ⟨_, he s, hf.event dt hs⟩

namespace KeepsQueue

variable (dt : Nat)

theorem contactSet_line (first : Bool) (b : BarrierUnit) (s : State) : (contactSet first b s).1.line = s.line := contactSet_kept first b s .line (by decide)

theorem contactChange (contact : Contact) : KeepsQueue (.contactChange dt contact) := .of_event (fun _ => rfl) (.guarded (.of_line fun s => by
  split
  · rfl
  · exact contactSet_line _ _ _) _)

theorem contactSample (input : FieldInput) (level : Bool) : KeepsQueue (.contactSample dt input level) := by
  cases input with
  | contact c =>
    refine .of_event (fun _ => rfl) (.guarded (.of_line fun s => ?_) _)
    unfold Machine.contactSample
    split
    · rfl
    extract_lets s1
    split
    · exact contactSet_line _ _ s1
    · rfl
  | key =>
    refine .of_event (fun _ => rfl) (.of_line fun s => ?_)
    simp only [plain, keySample]
    split <;> rfl

theorem travelTimeout : KeepsQueue (.travelTimeout dt) := .of_event (fun _ => rfl) (.guarded (fun s h => by
  have settled {w : State} (hw : QueueLaw w) : QueueLaw (barrierSettle w).1 := hw.of_kept (barrierSettle_kept w) (by decide)
  unfold travelEnd
  split
  · exact settled (h.of_line rfl)
  · exact settled (QueueLaw.of_kept (raiseCond_kept _ _) (by decide) (h.of_line rfl))) _)

theorem contactFaultTimeout : KeepsQueue (.contactFaultTimeout dt) := .of_event (fun _ => rfl) (.guarded (fun _ h => by
  exact QueueLaw.of_kept (barrierSettle_kept _) (by decide) (QueueLaw.of_kept (raiseCond_kept _ _) (by decide) (h.of_line rfl))) _)

theorem lampTestSample (currents : LampCurrents) : KeepsQueue (.lampTestSample dt currents) := .of_event (fun _ => rfl) (.plain fun s h => by
  have test {b : Bool} {a : Aspect} {lim : Limits} {x y : Nat} {w : State} (hw : QueueLaw w) : QueueLaw (if b then aspectTest a lim x y w else w) :=
    .ite (hw.of_kept (aspectTest_kept _ _ _ _ _) (by decide)) hw
  split
  · exact h
  split
  · exact test (test (test (h.of_line rfl)))
  · exact h)

theorem testPulseEnd (unit : PulseUnit) : KeepsQueue (.testPulseEnd dt unit) := .of_event (fun _ => rfl) (.guarded (.of_line fun s => by
  cases unit
  · exact endPulse_kept .lamps s .line (by decide)
  · exact endPulse_kept .dcis s .line (by decide)) _)

theorem flashCycleBoundary : KeepsQueue (.flashCycleBoundary dt) := .of_event (fun _ => rfl) (.of_line fun s => by
  simp only [plain]
  split
  · rfl
  · unfold cycleBoundary
    split <;> rfl)

theorem signallerFrameEnd : KeepsQueue (.signallerFrameEnd dt) := .of_event (fun _ => rfl) (.of_line fun s => by
  simp only [plain]
  split
  · rfl
  split
  · unfold sigEnd
    split <;> rfl
  · rfl)

theorem maintainerReplyEnd : KeepsQueue (.maintainerReplyEnd dt) := fun s hs => by
  refine ⟨_, rfl, ?_⟩
  split
  · exact queueLaw_empty rfl rfl
  · refine KeepsQueueLaw.event (.of_line fun w => ?_) dt hs
    simp only [plain, replyEnd]
    split
    · rfl
    · split <;> rfl

theorem sweepAbandoned (slot : Slot) (cause : AbandonCause) (levels : Levels) : KeepsQueue (.sweepAbandoned dt slot cause levels) :=
  .of_event (fun _ => rfl) (.plain fun s h => by
    split
    · exact h
    split
    · exact h
    split
    · extract_lets s1
      have h1 : QueueLaw s1 := h.of_line rfl
      exact .ite (leaveCalibrating_queueLaw (h1.of_kept (abandonStart_kept _ _ _ _ _) (by decide))) (h1.of_kept (abandonSweep_kept _ _ _ _ _) (by decide))
    · exact h)

theorem dueSweepStart (slot : Slot) : KeepsQueue (.dueSweepStart dt slot) := .of_event (fun _ => rfl) (.plain fun s h => by
  split
  · exact h
  · exact .ite (h.of_kept (startSweep_kept _ _ s) (by decide)) h)

theorem calibrate (dp : Nat) : KeepsQueue (.calibrate dt dp) := .of_event (fun _ => rfl) (.takeCommand fun s h => by
  have hsweep (k : SweepKind) (slot : Slot) : QueueLaw (startSweep k slot (putPort (.calibrate dp) none s)) :=
    (h.of_kept (putPort_kept _ _ s) (by decide)).of_kept (startSweep_kept _ _ _) (by decide)
  unfold calibrateAct
  split
  · exact h.of_line rfl
  · exact .ite (hsweep _ _) (.ite (hsweep _ _) (h.of_line rfl)))

theorem idleGapEnd : KeepsQueue (.idleGapEnd dt) := .of_event (fun _ => rfl) (.plain fun s h => by
  split
  · exact h
  · exact contend_queueLaw (QueueLaw.congr (s := s) ⟨rfl, rfl, rfl⟩ h))

theorem frameAttemptEnd : KeepsQueue (.frameAttemptEnd dt) := .of_event (fun _ => rfl) (fun s h => by
  split
  · exact h
  next f hf =>
    split
    · exact attemptEnd_queueLaw hf h
    · exact h)

theorem dropAccepted_queueLaw {s : State} (h : QueueLaw s) : QueueLaw (dropAccepted s) := QueueLaw.congr (s := s) ⟨rfl, rfl, rfl⟩ h

theorem strikeTaken : KeepsQueue (.strikeTaken dt) := .of_event (fun _ => rfl) (.plain fun s h => by
  split
  · exact h
  split
  · exact (dropAccepted_queueLaw h).of_kept (takeStrike_kept _ _ _) (by decide)
  iterate 3 exact h)

theorem statusTaken : KeepsQueue (.statusTaken dt) := .of_event (fun _ => rfl) (fun s h => by
  split
  · exact h
  split
  · exact takeStatus_queueLaw (dropAccepted_queueLaw h)
  iterate 3 exact h)

theorem hailTaken : KeepsQueue (.hailTaken dt) := .of_event (fun _ => rfl) (fun s h => by
  split
  · exact h
  split
  · split
    · exact testCompletion_queueLaw (answerHail_queueLaw (takeJoin_queueLaw (dropAccepted_queueLaw h)))
    · exact h
  iterate 3 exact h)

theorem answerTaken : KeepsQueue (.answerTaken dt) := .of_event (fun _ => rfl) (fun s h => by
  split
  · exact h
  split
  · split
    · exact testCompletion_queueLaw (takeJoin_queueLaw (dropAccepted_queueLaw h))
    · exact h
  iterate 3 exact h)

theorem resetOrderTaken : KeepsQueue (.resetOrderTaken dt) := .of_event (fun _ => rfl) (.plain fun s h => by
  split
  · exact h
  split
  · exact .ite ((dropAccepted_queueLaw h).of_kept (applyReset_kept _ _ _) (by decide)) (dropAccepted_queueLaw h)
  iterate 3 exact h)

theorem loadingEnd (answers : Bool) (readBack : Option Byte) : KeepsQueue (.loadingEnd dt answers readBack) :=
  .of_event (fun _ => rfl) (.guarded (.plain fun s h => loaded_queueLaw _ (h.of_line (by unfold countRestart; split <;> rfl))) _)

end KeepsQueue

/-- Every command keeps the law of the transmit queue: first those that work on the line controller, then those that leave it alone. -/
theorem keepsQueue (c : Instr) : KeepsQueue c := by
  cases c with
  | powerOnReset dt => exact fun s _ => ⟨_, rfl, queueLaw_empty rfl rfl⟩
  | maintainerReplyEnd dt => exact KeepsQueue.maintainerReplyEnd dt
  | supplyRestored dt => exact fun s hs => ⟨_, rfl, hs.of_line rfl⟩
  | loadingEnd dt answers readBack => exact KeepsQueue.loadingEnd dt answers readBack
  | acceptedEdge dt slot first second => exact .of_event (fun _ => rfl) (.guarded (.plain fun s h => takeEdges_queueLaw h) _)
  | headSupplyCheck dt slot head mA levels =>
    exact .of_event (fun _ => rfl) (.plain fun s h => leaveCalibrating_queueLaw (h.of_kept (supplyCheck_kept _ _ _ _ s) (by decide)))
  | probeWindowEnd dt slot lowest levels =>
    exact .of_event (fun _ => rfl) (.guarded (.plain fun s h => leaveCalibrating_queueLaw (h.of_kept (windowEnd_kept _ _ _ s) (by decide))) _)
  | sweepAbandoned dt slot cause levels => exact KeepsQueue.sweepAbandoned dt slot cause levels
  | carrierStart dt l | endOfCarrier dt l => exact .of_event (fun _ => rfl) (.plain fun s h => h.congr (mapLine_sameFrames _ l s))
  | idleGapEnd dt => exact KeepsQueue.idleGapEnd dt
  | holdoffEnd dt => exact .of_event (fun _ => rfl) (.plain fun s h => contend_queueLaw h)
  | readbackMismatch dt l remains => exact .of_event (fun _ => rfl) (.guarded (.plain fun s h => readback_queueLaw h) _)
  | frameAttemptEnd dt => exact KeepsQueue.frameAttemptEnd dt
  | statusPeriodExpiry dt | statusHoldbackEnd dt => exact .of_event (fun _ => rfl) (.guarded (.plain fun s h => queueStatus_queueLaw h) _)
  | frameReceived dt l bytes => exact .of_event (fun _ => rfl) (.guarded (.plain fun s h => receive_queueLaw h) _)
  | copyFilterEntryExpiry dt => exact .of_event (fun _ => rfl) (.guarded (.plain fun s h => by exact QueueLaw.congr (s := s) ⟨rfl, rfl, rfl⟩ h) _)
  | lineSilence dt l => exact .of_event (fun _ => rfl) (.guarded (.plain fun s h => h.congr (lineFails_sameFrames l s)) _)
  | strikeTaken dt => exact KeepsQueue.strikeTaken dt
  | statusTaken dt => exact KeepsQueue.statusTaken dt
  | hailTaken dt => exact KeepsQueue.hailTaken dt
  | answerTaken dt => exact KeepsQueue.answerTaken dt
  | resetOrderTaken dt => exact KeepsQueue.resetOrderTaken dt
  | hailTimer dt => exact .of_event (fun _ => rfl) (.guarded (.plain fun s h => by exact request_queueLaw (h.of_kept (putJoin_kept _ s) (by decide))) _)
  | joinWindowEnd dt => exact .of_event (fun _ => rfl) (.guarded (fun s h => endJoining_queueLaw h) _)
  | resetSection dt sec kind => exact .of_event (fun _ => rfl) (.takeCommand fun s h => resetAct_queueLaw h)
  | deadlineExpiry dt _ | releaseTimerExpiry dt | standingTestTime dt _ | flashHalfPoint dt | lampColdTest dt | dciColdTest dt | indicationDue dt =>
    exact .of_event (fun _ => rfl) (.guarded (.of_line fun _ => rfl) _)
  | firstCoverAged dt slot | calibrationTimerExpiry dt slot | dciTestSample dt mA0 mA1 =>
    exact .of_event (fun _ => rfl) (.of_line fun s => by simp only [plain]; split <;> [rfl; split <;> rfl])
  | correctionLengthenEnd dt | keyInputChange dt | signallerByteTimeout dt bytes | signallerFrameMalformed dt bytes | commandTimeout dt bytes =>
    exact .of_event (fun _ => rfl) (.of_line fun s => by simp only [plain]; split <;> rfl)
  | ack dt bytes | query dt bytes => exact .of_event (fun _ => rfl) (.of_line fun s => by simp only [plain]; split <;> [split <;> rfl; rfl])
  | dueSweepStart dt slot => exact KeepsQueue.dueSweepStart dt slot
  | comparatorSample dt slot head level => exact .of_event (fun _ => rfl) (.of_kept (takeSample_kept slot head level) (by decide))
  | dwellEnd dt => exact .of_event (fun _ => rfl) (.guarded (.of_kept (judgeStep_kept _) (by decide)) _)
  | waitLimitExpiry dt => exact .of_event (fun _ => rfl) (.guarded (.of_kept (endRun_kept _) (by decide)) _)
  | flashCycleBoundary dt => exact KeepsQueue.flashCycleBoundary dt
  | lampHotSample dt aspect main second =>
    exact .of_event (fun _ => rfl) (.guarded (.plain fun s h => by exact QueueLaw.of_kept (aspectResults_kept _ _ _ _ _) (by decide) (h.of_line rfl)) _)
  | lampTestSample dt currents => exact KeepsQueue.lampTestSample dt currents
  | testPulseEnd dt unit => exact KeepsQueue.testPulseEnd dt unit
  | contactChange dt contact => exact KeepsQueue.contactChange dt contact
  | contactSample dt input level => exact KeepsQueue.contactSample dt input level
  | deadTimeEnd dt => exact .of_event (fun _ => rfl) (.of_kept barrierSettle_kept (by decide))
  | travelTimeout dt => exact KeepsQueue.travelTimeout dt
  | contactFaultTimeout dt => exact KeepsQueue.contactFaultTimeout dt
  | lockoutLowerTimer dt => exact .of_event (fun _ => rfl) (.guarded (.of_line fun _ => by exact handCommand_kept _ _ .line (by decide)) _)
  | dciHotSample dt out mA => exact .of_event (fun _ => rfl) (.guarded (.of_line fun _ => by exact dciResult_kept _ _ _ .line (by decide)) _)
  | peerAgeTimeout dt station => exact .of_event (fun _ => rfl) (.guarded (.of_kept (setPeerState_kept station .stale) (by decide)) _)
  | agreementToleranceReached dt station => exact .of_event (fun _ => rfl) (.guarded (.of_line fun _ => by exact raiseCond_kept _ _ .line (by decide)) _)
  | infoConditionExpiry dt cond => exact .of_event (fun _ => rfl) (.guarded (.of_kept (clearCond_kept cond) (by decide)) _)
  | noticeSpacingEnd dt => exact .of_event (fun _ => rfl) (.of_kept transmit_kept (by decide))
  | signallerFrameEnd dt => exact KeepsQueue.signallerFrameEnd dt
  | showPeers dt | showSections dt | showNotices dt | showFirstFault dt | restart dt => exact .of_event (fun _ => rfl) .answered
  | unknownCommand dt bytes => exact .of_event (fun _ => rfl) (.guarded .answered _)
  | showDetection dt | readLatches dt | readMismatches dt | clearFirstFault dt => exact .of_event (fun _ => rfl) (.takeCommand_still fun _ => rfl)
  | calibrate dt dp => exact KeepsQueue.calibrate dt dp
  | commandWhileBusy dt bytes => exact .of_event (fun _ => rfl) (.guarded (.of_kept busyPort_kept (by decide)) _)

/-- Settles O12: every operation of the line controller keeps the queue lawful, and the work of every other command leaves the line controller alone. -/
theorem everyStepKeepsTheQueueLaw : Obligations.EveryStepKeepsTheQueueLaw := by
  unfold Obligations.EveryStepKeepsTheQueueLaw
  intro s t hs hstep
  unfold step at hstep
  split at hstep
  · cases hstep
    exact hs
  next c rest hpending =>
    obtain ⟨u, hu, hl⟩ := keepsQueue c { s with pending := rest } (hs.of_line rfl)
    cases hu.symm.trans hstep
    exact hl

end Sys2Proof.Machine
end

section
/-! ## Line access: the order of choice, carrier, the idle gap, the holdoff (R63, R64, R66, R69, R70, R73) -/

namespace Sys2Proof.Machine

/-! ### The records of the two lines -/

@[simp] theorem lineAt_mapLine_same (f : LineRec → LineRec) (l : Line) (s : State) : lineAt (mapLine f l s) l = f (lineAt s l) := by cases l <;> rfl

@[simp] theorem lineAt_mapLine_other (f : LineRec → LineRec) (l : Line) (s : State) : lineAt (mapLine f l s) (otherLine l) = lineAt s (otherLine l) := by
  cases l <;> rfl

theorem line_eq_or_other (l k : Line) : k = l ∨ k = otherLine l := by cases l <;> cases k <;> simp [otherLine]

theorem lineAt_congr {s t : State} (ha : t.line.a = s.line.a) (hb : t.line.b = s.line.b) (l : Line) : lineAt t l = lineAt s l := by
  cases l
  · exact ha
  · exact hb

theorem lineAt_of_line {s t : State} (h : t.line = s.line) (l : Line) : lineAt t l = lineAt s l :=
  lineAt_congr (congrArg LineUnit.a h) (congrArg LineUnit.b h) l

@[simp] theorem lineAt_advance (dt : Nat) (s : State) (l : Line) : lineAt (advance dt s) l = lineAt s l := lineAt_of_line rfl l

/-- The conclusion of an event leaves the records of the lines alone. -/
theorem Concluded.lineAt {s t : State} (h : Concluded s t) (l : Line) : lineAt t l = lineAt s l := lineAt_congr h.watched.line_a h.watched.line_b l

theorem drives_congr {s t : State} (h : t.line.flight = s.line.flight) (l : Line) : drives t l = drives s l := by
  unfold drives
  rw [h]

/-- A change of a line's record that keeps its health changes nothing of which lines are heeded. -/
theorem heeded_mapLine {f : LineRec → LineRec} (hf : ∀ r, (f r).health = r.health) (l k : Line) (s : State) :
    heeded (mapLine f l s) k = heeded s k := by
  cases l <;> cases k <;> simp only [heeded, mapLine, Machine.lineAt, otherLine, hf]

/-- The crossing line is quiet where no heeded line carries carrier (R63). -/
theorem lineQuiet_iff {s : State} : lineQuiet s = true ↔ ∀ l, heeded s l = true → carried s l = false := by
  constructor
  · intro h l hl
    simp only [lineQuiet, Bool.and_eq_true, Bool.not_eq_true', Bool.and_eq_false_iff] at h
    obtain ⟨ha, hb⟩ := h
    cases l
    · exact ha.resolve_left (by simp [hl])
    · exact hb.resolve_left (by simp [hl])
  · intro h
    have key (l : Line) : (heeded s l && carried s l) = false := by
      cases hl : heeded s l
      · rfl
      · exact h l hl
    simp [lineQuiet, key]

theorem lineQuiet_eq_false {s : State} {l : Line} (hh : heeded s l = true) (hc : carried s l = true) : lineQuiet s = false := by
  by_contra hn
  have := lineQuiet_iff.1 (by simpa using hn) l hh
  simp [hc] at this

theorem lineQuiet_congr {s t : State} (ha : t.line.a = s.line.a) (hb : t.line.b = s.line.b) (hf : t.line.flight = s.line.flight) :
    lineQuiet t = lineQuiet s := by
  have hl (k : Line) : lineAt t k = lineAt s k := lineAt_congr ha hb k
  simp only [lineQuiet, heeded, carried, hl, drives_congr hf]

/-! ### What the conclusion of an event does on the line (R63, R64, R72) -/

/-- The published fields of a state that keeps what they are read from, and both lines' health. -/
theorem published_congr {l : List Part} {s t : State} (hk : KeptBut l s t)
    (hl : ∀ p ∈ [Part.phase, .dps, .barrier, .lights, .sections, .conds], p ∉ l) (hh : ∀ k, (lineAt t k).health = (lineAt s k).health) :
    published t = published s := by
  have hphase : t.phase = s.phase := hk .phase (hl _ (by decide))
  have hdps : t.dps = s.dps := hk .dps (hl _ (by decide))
  have hbarrier : t.barrier = s.barrier := hk .barrier (hl _ (by decide))
  have hlights : t.lights = s.lights := hk .lights (hl _ (by decide))
  have hsections : t.sections = s.sections := hk .sections (hl _ (by decide))
  obtain ⟨hconds, hchanges⟩ : t.conds = s.conds ∧ t.changes = s.changes := hk .conds (hl _ (by decide))
  have ha : t.line.a.health = s.line.a.health := hh .a
  have hb : t.line.b.health = s.line.b.health := hh .b
  simp only [published, dpReports, sectionSummary, condList, hphase, hdps, hbarrier, hlights, hsections, hconds, hchanges, ha, hb]

/-- What follows the quiet is the time at which it began and the end of its gap, read from the line controller and the clock. -/
theorem followQuiet_line (s : State) : ∃ q g, (followQuiet s).line = { s.line with quietSince := q, gapEnd := g } := by
  unfold followQuiet
  repeat' split
  all_goals exact ⟨_, _, rfl⟩

theorem followQuiet_congr {s t : State} (hl : t.line = s.line) (hc : t.clock = s.clock) : (followQuiet t).line = (followQuiet s).line := by
  have hq : lineQuiet t = lineQuiet s := lineQuiet_congr (by rw [hl]) (by rw [hl]) (by rw [hl])
  unfold followQuiet
  rw [hq, hl, hc]
  repeat' split
  all_goals first
    | exact hl
    | rfl

/-- A line that is quiet and known to be stays as it is. -/
theorem followQuiet_quiet {s : State} (hq : lineQuiet s = true) (hs : s.line.quietSince ≠ none) : followQuiet s = s := by
  cases h : s.line.quietSince with
  | none => exact absurd h hs
  | some q => simp [followQuiet, hq, h]

/-- The return of quiet is noted at the moment of the event. -/
theorem followQuiet_begins {s : State} (hr : s.line.rxOn = true) (hq : lineQuiet s = true) (hs : s.line.quietSince = none) :
    (followQuiet s).line = { s.line with quietSince := some s.clock.us } := by simp [followQuiet, hr, hq, hs]

theorem followQuiet_loud {s : State} (hr : s.line.rxOn = true) (hq : lineQuiet s = false) :
    (followQuiet s).line = { s.line with quietSince := none, gapEnd := none } := by simp [followQuiet, hr, hq]

theorem readyNow_congr {s0 s t : State} (h : SameFrames s t) : readyNow s0 t = readyNow s0 s := by
  unfold readyNow
  rw [h.queue, h.flight]

/-- Nothing is ready where no idle gap has ended. -/
theorem readyNow_noGap {s0 : State} (h : s0.line.gapEnd = none) (s1 : State) : readyNow s0 s1 = false := by simp [readyNow, h]

/-- Nothing is ready where the queue and the frame in flight have not changed. -/
theorem readyNow_still {s0 s1 : State} (hq : s1.line.queue = s0.line.queue) (hf : s1.line.flight = none → s0.line.flight = none) :
    readyNow s0 s1 = false := by
  cases h1 : s1.line.flight with
  | none => simp [readyNow, hq, hf h1]
  | some f => simp [readyNow, hq, h1]

/-- No attempt begins while a frame is in flight (R64). -/
theorem contend_in_flight {s : State} {f : Flight} (h : s.line.flight = some f) : contend s = s := by simp [contend, h]

/-- The part of the conclusion before the line: the leader, the first-fault record, the indicators. -/
def judged (s0 s1 : State) : State := judgeDcis (completeFirstFault s0 (chooseLeader s1))

theorem judged_kept (s0 s1 : State) : KeptBut [.flash, .firstFault, .dci] s1 (judged s0 s1) :=
  (((chooseLeader_kept s1).mono (by decide)).trans ((completeFirstFault_kept s0 _).mono (by decide))).trans ((judgeDcis_kept _).mono (by decide))

theorem judged_line (s0 s1 : State) : (judged s0 s1).line = s1.line := judged_kept s0 s1 .line (by decide)

/-- What a conclusion in which no published field has changed does on the line: it follows the quiet, and lets the chosen frame contend where one has
become ready. -/
theorem conclude_line {s0 s1 : State} (hp : published s1 = published s0) :
    (conclude s0 s1).line = (if readyNow s0 s1 then contendNow (followQuiet (judged s0 s1)) else followQuiet (judged s0 s1)).line := by
  have hpub : published (judged s0 s1) = published s0 :=
    (published_congr (judged_kept s0 s1) (by decide) fun k => by rw [lineAt_of_line (judged_line s0 s1)]).trans hp
  have hframes : SameFrames s1 (followQuiet (judged s0 s1)) := by
    obtain ⟨hq, hn, hf⟩ := followQuiet_sameFrames (judged s0 s1)
    rw [judged_line] at hq hn hf
    exact ⟨hq, hn, hf⟩
  unfold conclude
  extract_lets s2 s3 s4 s5
  have h3 : s3 = judged s0 s1 := if_neg fun h => h.2 hpub.symm
  have h4 : s4 = followQuiet (judged s0 s1) := congrArg followQuiet h3
  have hl : (transmit s5).line = s5.line := transmit_kept s5 .line (by decide)
  rw [hl]
  unfold s5
  rw [h4, readyNow_congr hframes]

/-- Where nothing has become ready, the conclusion only follows the quiet. -/
theorem conclude_line_unready {s0 s1 : State} (hp : published s1 = published s0) (hr : readyNow s0 s1 = false) :
    (conclude s0 s1).line = (followQuiet s1).line := by
  rw [conclude_line hp, hr]
  exact followQuiet_congr (judged_line s0 s1) (judged_kept s0 s1 .clock (by decide))

/-- With a frame in flight the conclusion changes no more of the line than the quiet and its gap. -/
theorem conclude_line_in_flight {s0 s1 : State} {f : Flight} (hp : published s1 = published s0) (hf : s1.line.flight = some f) :
    ∃ q g, (conclude s0 s1).line = { s1.line with quietSince := q, gapEnd := g } := by
  rw [conclude_line hp]
  obtain ⟨q, g, hl⟩ := followQuiet_line (judged s0 s1)
  rw [judged_line] at hl
  split
  · obtain ⟨q', g', hl'⟩ := followQuiet_line (followQuiet (judged s0 s1))
    refine ⟨q', g', ?_⟩
    rw [contendNow, contend_in_flight (f := f) (by rw [hl, hf]), hl', hl]
  · exact ⟨q, g, hl⟩

/-- An event whose work gives no signal and keeps sections, peers and the first-fault record is that work and its conclusion, which touches the watched
parts besides. -/
theorem event_settles {dt : Nat} {s s1 : State} {f : State → Work} {l : List Part} (hp : s.powered = true) (hf : f (advance dt s) = (s1, []))
    (hk : KeptBut l (advance dt s) s1) (hl : ∀ p ∈ [Part.sections, .peers, .firstFault], p ∉ l) :
    event dt s f = conclude (advance dt s) s1 ∧ Concluded s1 (event dt s f) ∧ KeptBut (l ++ watchedParts) (advance dt s) (event dt s f) := by
  have hc := event_concluded hp hf (hk .sections (hl _ (by decide))) (hk .peers (hl _ (by decide))) (hk .firstFault (hl _ (by decide)))
  exact ⟨event_quiet hp hf (hk .sections (hl _ (by decide))) (hk .peers (hl _ (by decide))), hc,
    (hk.mono (List.subset_append_left _ _)).trans (hc.kept.mono (List.subset_append_right _ _))⟩

/-- The same where the work has touched the line controller alone, without a line's health. -/
theorem event_line {dt : Nat} {s s1 : State} {f : State → Work} (hp : s.powered = true) (hf : f (advance dt s) = (s1, []))
    (hk : KeptBut [.line] (advance dt s) s1) (hh : ∀ k, (lineAt s1 k).health = (lineAt s k).health) :
    event dt s f = conclude (advance dt s) s1 ∧ Concluded s1 (event dt s f) ∧ KeptBut watchedParts (advance dt s) (event dt s f)
      ∧ published s1 = published (advance dt s) := by
  obtain ⟨he, hc, hkept⟩ := event_settles hp hf hk (by decide)
  exact ⟨he, hc, hkept.mono (by decide), published_congr hk (by decide) hh⟩

/-! ### The order of choice (R69, R70) -/

theorem chosen_eq_none {q : List TxItem} : chosen q = none ↔ q = [] := by
  cases q with
  | nil => simp [chosen]
  | cons x rest =>
    simp only [chosen, reduceCtorEq, iff_false]
    split
    · simp
    · split <;> simp

/-- A class has its own rank (R64). -/
theorem classRank_inj {k l : FrameKind} (h : k.classRank = l.classRank) : k = l := by cases k <;> cases l <;> first | rfl | cases h

/-- A STRIKE is the request of a slot. -/
theorem TxWhat.kind_eq_strike {w : TxWhat} : w.kind = .strike ↔ ∃ slot, w = .strike slot := by cases w <;> simp [TxWhat.kind]

/-- A frame of a more urgent class goes first (R70). -/
theorem TxItem.before_of_rank_lt {x y : TxItem} (h : x.what.kind.classRank < y.what.kind.classRank) : x.before y = true := by simp [TxItem.before, h]

theorem TxItem.rank_le_of_before {x y : TxItem} (h : x.before y = true) : x.what.kind.classRank ≤ y.what.kind.classRank := by
  simp only [TxItem.before, Bool.or_eq_true, Bool.and_eq_true, decide_eq_true_eq, beq_iff_eq] at h
  omega

theorem TxItem.rank_le_of_not_before {x y : TxItem} (h : x.before y = false) : y.what.kind.classRank ≤ x.what.kind.classRank := by
  by_contra hlt
  rw [TxItem.before_of_rank_lt (Nat.lt_of_not_le hlt)] at h
  cases h

/-- Of two frames of one class, no STRIKEs, the one queued earlier goes first (R70). -/
theorem TxItem.before_of_kind {x y : TxItem} (hk : x.what.kind = y.what.kind) (hs : x.what.kind ≠ .strike) : x.before y = decide (x.ord < y.ord) := by
  unfold TxItem.before
  simp only [hk, lt_irrefl, decide_false, Bool.false_or, beq_self_eq_true, Bool.true_and]
  split
  next hx _ => exact absurd (TxWhat.kind_eq_strike.2 ⟨_, hx⟩) hs
  · rfl

/-- Of two STRIKEs that of slot 0 goes first where both were queued at one instant, else the one queued earlier (R70). -/
theorem TxItem.before_of_strikes {x y : TxItem} {a b : Slot} (hx : x.what = .strike a) (hy : y.what = .strike b) :
    x.before y = if x.queuedAt = y.queuedAt then decide (a.val < b.val) else decide (x.ord < y.ord) := by
  simp [TxItem.before, hx, hy, TxWhat.kind]

theorem TxItem.before_asymm {x y : TxItem} (h : x.before y = true) : y.before x = false := by
  by_contra hn
  have hyx : y.before x = true := by simpa using hn
  have hk : x.what.kind = y.what.kind := classRank_inj (le_antisymm (rank_le_of_before h) (rank_le_of_before hyx))
  by_cases hs : x.what.kind = .strike
  · obtain ⟨a, ha⟩ := TxWhat.kind_eq_strike.1 hs
    obtain ⟨b, hb⟩ := TxWhat.kind_eq_strike.1 (hk ▸ hs)
    rw [before_of_strikes ha hb] at h
    rw [before_of_strikes hb ha] at hyx
    by_cases hq : x.queuedAt = y.queuedAt
    · rw [if_pos hq, decide_eq_true_eq] at h
      rw [if_pos hq.symm, decide_eq_true_eq] at hyx
      omega
    · rw [if_neg hq, decide_eq_true_eq] at h
      rw [if_neg (Ne.symm hq), decide_eq_true_eq] at hyx
      omega
  · rw [before_of_kind hk hs] at h
    rw [before_of_kind hk.symm (hk ▸ hs)] at hyx
    rw [decide_eq_true_eq] at h hyx
    omega

/-- Two slots: of three STRIKEs two have one key. -/
theorem slots_of_three {a b c : Slot} (hac : a ≠ c) (hbc : b ≠ c) : a = b := by decide +revert

/-- A frame that is not behind the best of the rest, where the best is not before it, is before none of them: in a class but STRIKE by the order of
queueing, and STRIKEs of two slots are never three. -/
theorem TxItem.not_before_trans {j y x : TxItem} (hjy : j.before y = false) (hyx : y.before x = false) (hj : j.what.key ≠ x.what.key)
    (hy : y.what.key ≠ x.what.key) (heq : j.what.key = y.what.key → j = y) : j.before x = false := by
  by_contra hn
  have hjx : j.before x = true := by simpa using hn
  have hrank : j.what.kind.classRank = x.what.kind.classRank ∧ y.what.kind.classRank = x.what.kind.classRank := by
    have h1 := rank_le_of_before hjx
    have h2 := rank_le_of_not_before hyx
    have h3 := rank_le_of_not_before hjy
    omega
  have hkj : j.what.kind = x.what.kind := classRank_inj hrank.1
  have hky : y.what.kind = x.what.kind := classRank_inj hrank.2
  by_cases hs : x.what.kind = .strike
  · obtain ⟨a, ha⟩ := TxWhat.kind_eq_strike.1 (hkj.trans hs)
    obtain ⟨b, hb⟩ := TxWhat.kind_eq_strike.1 (hky.trans hs)
    obtain ⟨c, hc⟩ := TxWhat.kind_eq_strike.1 hs
    have hab : a = b := slots_of_three (by simpa [ha, hc, TxWhat.key] using hj) (by simpa [hb, hc, TxWhat.key] using hy)
    rw [heq (by rw [ha, hb, hab])] at hjx
    rw [hjx] at hyx
    cases hyx
  · rw [before_of_kind hkj (hkj ▸ hs)] at hjx
    rw [before_of_kind hky (hky ▸ hs)] at hyx
    rw [before_of_kind (hkj.trans hky.symm) (hkj ▸ hs)] at hjy
    simp only [decide_eq_true_eq, decide_eq_false_iff_not] at hjx hyx hjy
    omega

/-- No queued frame goes before the chosen one (R70). -/
theorem chosen_first {q : List TxItem} {i : TxItem} (hnd : (q.map (·.what.key)).Nodup) (h : chosen q = some i) : ∀ j ∈ q, j.before i = false := by
  have irrefl (x : TxItem) : x.before x = false := by
    by_contra hn
    have hx : x.before x = true := by simpa using hn
    rw [TxItem.before_asymm hx] at hx
    cases hx
  induction q generalizing i with
  | nil => simp [chosen] at h
  | cons x rest ih =>
    obtain ⟨hx, hrest⟩ := List.nodup_cons.1 hnd
    have hne (j : TxItem) (hj : j ∈ rest) : j.what.key ≠ x.what.key := fun he => hx (List.mem_map.2 ⟨j, hj, he⟩)
    unfold chosen at h
    split at h
    next hnone =>
      cases h
      intro j hj
      rw [chosen_eq_none.1 hnone, List.mem_singleton] at hj
      exact hj ▸ irrefl x
    next y hy =>
      have hfirst := ih hrest hy
      have hmem := chosen_mem hy
      split at h
      next hyx =>
        cases h
        exact List.forall_mem_cons.2 ⟨TxItem.before_asymm hyx, hfirst⟩
      next hyx =>
        cases h
        refine List.forall_mem_cons.2 ⟨irrefl x, fun j hj => ?_⟩
        exact TxItem.not_before_trans (hfirst j hj) (by simpa using hyx) (hne j hj) (hne y hmem) fun he => List.inj_on_of_nodup_map hrest hj hmem he

/-- The chosen frame by the words of R70: the most urgent class, in it the earliest queued, of two STRIKEs of one instant that of slot 0. -/
theorem chosen_by_class_and_order {q : List TxItem} {i : TxItem} (hnd : (q.map (·.what.key)).Nodup) (h : chosen q = some i) :
    i ∈ q ∧ ∀ j ∈ q, i.what.kind.classRank ≤ j.what.kind.classRank
      ∧ (i.what.kind = j.what.kind → (i.what.kind ≠ .strike ∨ i.queuedAt ≠ j.queuedAt → i.ord ≤ j.ord)
          ∧ (∀ a b : Slot, i.what = .strike a → j.what = .strike b → i.queuedAt = j.queuedAt → a.val ≤ b.val)) := by
  refine ⟨chosen_mem h, fun j hj => ?_⟩
  have hji := chosen_first hnd h j hj
  refine ⟨TxItem.rank_le_of_not_before hji, fun hk => ⟨fun hor => ?_, fun a b ha hb hq => ?_⟩⟩
  · by_cases hs : i.what.kind = .strike
    · have hq : i.queuedAt ≠ j.queuedAt := hor.resolve_left fun hn => hn hs
      obtain ⟨a, ha⟩ := TxWhat.kind_eq_strike.1 hs
      obtain ⟨b, hb⟩ := TxWhat.kind_eq_strike.1 (hk ▸ hs)
      rw [TxItem.before_of_strikes hb ha, if_neg (Ne.symm hq)] at hji
      simpa using hji
    · rw [TxItem.before_of_kind hk.symm (hk ▸ hs)] at hji
      simpa using hji
  · rw [TxItem.before_of_strikes hb ha, if_pos hq.symm] at hji
    simpa using hji

/-- A request at the end of the order, or in the place of the frame of its key (R69). -/
theorem request_placed {w : TxWhat} {s : State} (ha : admits s.join w = true) :
    (queuedUnder s.line.queue w.key = none → w.kind ≠ .service ∨ (services s.line.queue).length < 2 →
        (request w s).line.queue = s.line.queue ++ [{ what := w, attempts := 0, seq := none, ord := s.line.nextOrd, queuedAt := s.clock.us }]
          ∧ (request w s).line.nextOrd = s.line.nextOrd + 1)
      ∧ (queuedUnder s.line.queue w.key ≠ none →
          (request w s).line.queue = s.line.queue.map (fun i => if i.what.key = w.key then { i with what := w, seq := none } else i)) := by
  unfold request
  rw [if_pos ha]
  constructor
  · intro hkey hroom
    have hn : ¬(w.kind = .service ∧ 2 ≤ (services s.line.queue).length) := fun ⟨hk, hl⟩ => hroom.elim (· hk) (Nat.not_lt.2 hl)
    rw [hkey]
    dsimp only
    rw [if_neg hn]
    exact ⟨rfl, rfl⟩
  · intro hkey
    split
    · rfl
    next hnone => exact absurd hnone hkey

/-! ### Carrier and the idle gap (R63, R64) -/

section

variable {dt : Nat} {l : Line} {s : State} (hp : s.powered = true) (hrx : s.line.rxOn = true)
include hp hrx

theorem carrierStart_ends_quiet (hh : heeded s l = true) : ∃ t, exec (.carrierStart dt l) s = .next t
    ∧ lineAt t l = { lineAt s l with carrier := true } ∧ lineAt t (otherLine l) = lineAt s (otherLine l) ∧ t.line.quietSince = none ∧ t.line.gapEnd = none
    ∧ t.line.queue = s.line.queue ∧ t.line.flight = s.line.flight ∧ KeptBut watchedParts (advance dt s) t := by
  have hhealth (k : Line) : (lineAt (mapLine (fun r => { r with carrier := true }) l (advance dt s)) k).health = (lineAt s k).health := by
    cases l <;> cases k <;> rfl
  obtain ⟨he, hc, hkept, hpub⟩ := event_line hp (plain_apply (mapLine (fun r => { r with carrier := true }) l) _) (mapLine_kept _ l (advance dt s)) hhealth
  have hframes := mapLine_sameFrames (fun r => { r with carrier := true }) l (advance dt s)
  have hloud : lineQuiet (mapLine (fun r => { r with carrier := true }) l (advance dt s)) = false :=
    lineQuiet_eq_false (l := l) ((heeded_mapLine (by exact fun _ => rfl) l l _).trans hh) (by simp [carried])
  have hline := conclude_line_unready hpub (readyNow_still hframes.queue fun h => hframes.flight ▸ h)
  rw [followQuiet_loud (by cases l <;> exact hrx) hloud, ← he] at hline
  refine ⟨_, rfl, ?_, ?_, ?_, ?_, ?_, ?_, hkept⟩
  · rw [hc.lineAt, lineAt_mapLine_same, lineAt_advance]
  · rw [hc.lineAt, lineAt_mapLine_other, lineAt_advance]
  · exact congrArg LineUnit.quietSince hline
  · exact congrArg LineUnit.gapEnd hline
  · exact (congrArg LineUnit.queue hline).trans hframes.queue
  · exact (congrArg LineUnit.flight hline).trans hframes.flight

theorem endOfCarrier_begins_quiet (hf : s.line.flight = none) (ho : (lineAt s (otherLine l)).carrier = false) (hq : s.line.quietSince = none) :
    ∃ t, exec (.endOfCarrier dt l) s = .next t
      ∧ lineAt t l = { lineAt s l with carrier := false, blocked := false } ∧ lineAt t (otherLine l) = lineAt s (otherLine l)
      ∧ t.line.quietSince = some (advance dt s).clock.us ∧ t.line.queue = s.line.queue ∧ KeptBut watchedParts (advance dt s) t := by
  have hhealth (k : Line) : (lineAt (mapLine (fun r => { r with carrier := false, blocked := false }) l (advance dt s)) k).health
      = (lineAt s k).health := by
    cases l <;> cases k <;> rfl
  obtain ⟨he, hc, hkept, hpub⟩ := event_line hp (plain_apply (mapLine (fun r => { r with carrier := false, blocked := false }) l) _)
    (mapLine_kept _ l (advance dt s)) hhealth
  have hframes := mapLine_sameFrames (fun r => { r with carrier := false, blocked := false }) l (advance dt s)
  have hquiet : lineQuiet (mapLine (fun r => { r with carrier := false, blocked := false }) l (advance dt s)) = true := by
    refine lineQuiet_iff.2 fun k _ => ?_
    have hdrives : drives (mapLine (fun r => { r with carrier := false, blocked := false }) l (advance dt s)) k = false := by
      rw [drives, hframes.flight]
      simp [hf]
    rcases line_eq_or_other l k with rfl | rfl
    · simp [carried, hdrives]
    · simp [carried, hdrives, ho]
  have hline := conclude_line_unready hpub (readyNow_still hframes.queue fun h => hframes.flight ▸ h)
  have hclock : (mapLine (fun r => { r with carrier := false, blocked := false }) l (advance dt s)).clock = (advance dt s).clock :=
    mapLine_kept _ l _ .clock (by decide)
  rw [followQuiet_begins (by cases l <;> exact hrx) hquiet (by cases l <;> exact hq), hclock, ← he] at hline
  refine ⟨_, rfl, ?_, ?_, ?_, ?_, hkept⟩
  · rw [hc.lineAt, lineAt_mapLine_same, lineAt_advance]
  · rw [hc.lineAt, lineAt_mapLine_other, lineAt_advance]
  · exact congrArg LineUnit.quietSince hline
  · exact (congrArg LineUnit.queue hline).trans hframes.queue

end

/-- The work of IDLE_GAP_END: the end of the gap noted, where it has come about, and the chosen frame contends (R64). -/
def noteGap (s : State) : State :=
  match idleGapEnd s with
  | none => s
  | some g => contend { s with line := { s.line with gapEnd := some g } }

theorem exec_idleGapEnd (dt : Nat) (s : State) : exec (.idleGapEnd dt) s = .next (event dt s (plain noteGap)) := rfl

theorem idleGapEnd_notes_gap {dt : Nat} {s : State} {q : Time} (hp : s.powered = true) (hs : s.line.quietSince = some q) (hg : s.line.gapEnd = none)
    (hq : lineQuiet s = true) (hempty : s.line.queue = []) (ht : 1000 ≤ ((advance dt s).clock.us - q).toNat) :
    ∃ t, exec (.idleGapEnd dt) s = .next t ∧ t.line = { s.line with gapEnd := some (later q 1000) } ∧ KeptBut watchedParts (advance dt s) t := by
  have hquiet : lineQuiet (advance dt s) = true := hq
  have hran : 1000 ≤ sinceUs (advance dt s) q := ht
  have hgap : idleGapEnd (advance dt s) = some (later q 1000) := by simp [idleGapEnd, hs, hg, hquiet, hran]
  have hwork : plain noteGap (advance dt s) = ({ advance dt s with line := { s.line with gapEnd := some (later q 1000) } }, []) := by
    simp [plain, noteGap, hgap, contend, hempty, chosen]
  obtain ⟨he, -, hkept, hpub⟩ := event_line hp hwork (putLine_kept _ _) fun k => by cases k <;> rfl
  refine ⟨_, exec_idleGapEnd dt s, ?_, hkept⟩
  rw [he, conclude_line_unready hpub (readyNow_noGap hg _), followQuiet_quiet]
  · exact (lineQuiet_congr rfl rfl rfl).trans hq
  · simp [hs]

/-! ### The holdoff and the start of an attempt (R64, R66, R73) -/

/-- An attempt whose body can be built: the frame in flight as R66 fills it in, its sequence number kept or the kind's next (R73). -/
theorem startAttempt_started {i : TxItem} {s : State} {body : Body} (hb : buildBody s i.what = some body) :
    ∃ q : Byte, (∀ x : Byte, i.seq = some x → q = x) ∧ (i.seq = none → q = s.line.seqOf i.what.kind ∧ (startAttempt i s).line.seqOf i.what.kind = q + 1)
      ∧ (startAttempt i s).line.flight = some {
          item := { i with seq := some q },
          bytes := ({ crossing := s.cfg.crossing, source := s.cfg.own, seq := q, body := body } : Frame).bytes,
          startUs := s.clock.us, startMs := s.clock.ms, drivingA := true, drivingB := true, noRetry := false } := by
  refine ⟨i.seq.getD (s.line.seqOf i.what.kind), ?_, ?_, ?_⟩
  · rintro x hx
    simp [hx]
  · intro hn
    simp only [hn, Option.getD_none, true_and, startAttempt, hb, Option.isNone_none, if_true]
    cases i.what.kind <;> rfl
  · simp only [startAttempt, hb]

theorem startAttempt_health (i : TxItem) (s : State) (k : Line) : (lineAt (startAttempt i s) k).health = (lineAt s k).health :=
  congrArg LineRec.health (lineAt_congr (startAttempt_watched i s).line_a (startAttempt_watched i s).line_b k)

section

variable {dt : Nat} {s : State} {g : Time} {i : TxItem} (hp : s.powered = true) (hg : s.line.gapEnd = some g) (hf : s.line.flight = none)
  (hq : lineQuiet s = true) (hi : chosen s.line.queue = some i)
include hp hg hf hq hi

omit hp in
/-- HOLDOFF_END makes the chosen frame contend. -/
theorem contend_chosen (hr : reached (advance dt s).clock.us g = true) :
    contend (advance dt s) = if (16 * i.what.kind.classRank + s.cfg.own) * 150 ≤ ((advance dt s).clock.us - g).toNat
      then startAttempt i (advance dt s) else advance dt s := by
  have hquiet : lineQuiet (advance dt s) = true := hq
  have hrun : holdoffRun (advance dt s) i
      = decide ((16 * i.what.kind.classRank + s.cfg.own) * 150 ≤ ((advance dt s).clock.us - g).toNat) := by
    unfold holdoffRun
    rw [advance_line, hg]
    dsimp only
    rw [hr, Bool.true_and]
    rfl
  unfold contend
  rw [if_pos ⟨by simp [hf], hquiet⟩, advance_line, hi]
  simp only [hrun, decide_eq_true_eq]

theorem holdoffEnd_waits (hs : s.line.quietSince ≠ none) (hr : reached (advance dt s).clock.us g = true)
    (ht : ((advance dt s).clock.us - g).toNat < (16 * i.what.kind.classRank + s.cfg.own) * 150) :
    ∃ t, exec (.holdoffEnd dt) s = .next t ∧ t.line = s.line ∧ KeptBut watchedParts (advance dt s) t := by
  have hwork : plain contend (advance dt s) = (advance dt s, []) := by
    rw [plain, contend_chosen hg hf hq hi hr, if_neg (Nat.not_le.2 ht)]
  obtain ⟨he, -, hkept, hpub⟩ := event_line hp hwork (KeptBut.refl _ _) fun k => by rw [lineAt_advance]
  refine ⟨_, rfl, ?_, hkept⟩
  rw [he, conclude_line_unready hpub (readyNow_still rfl id), followQuiet_quiet]
  · rfl
  · exact hq
  · exact hs

theorem holdoffEnd_starts {body : Body} (hr : reached (advance dt s).clock.us g = true) (hb : buildBody (advance dt s) i.what = some body)
    (ht : (16 * i.what.kind.classRank + s.cfg.own) * 150 ≤ ((advance dt s).clock.us - g).toNat) :
    ∃ t q, exec (.holdoffEnd dt) s = .next t
      ∧ (∀ x : Byte, i.seq = some x → q = x) ∧ (i.seq = none → q = s.line.seqOf i.what.kind ∧ t.line.seqOf i.what.kind = q + 1)
      ∧ t.line.flight = some {
          item := { i with seq := some q },
          bytes := ({ crossing := s.cfg.crossing, source := s.cfg.own, seq := q, body := body } : Frame).bytes,
          startUs := (advance dt s).clock.us, startMs := (advance dt s).clock.ms, drivingA := true, drivingB := true, noRetry := false }
      ∧ t.line.queue = s.line.queue.filter (fun j => j.ord ≠ i.ord) ∧ KeptBut watchedParts (advance dt s) t := by
  have hwork : plain contend (advance dt s) = (startAttempt i (advance dt s), []) := by
    rw [plain, contend_chosen hg hf hq hi hr, if_pos ht]
  obtain ⟨he, -, hkept, hpub⟩ := event_line hp hwork (startAttempt_kept _ _) (startAttempt_health i _)
  obtain ⟨q, hseq, hnew, hflight⟩ := startAttempt_started hb
  obtain ⟨u, v, hline⟩ := conclude_line_in_flight hpub hflight
  rw [← he] at hline
  refine ⟨_, q, rfl, hseq, fun hn => ?_, ?_, ?_, hkept⟩
  · obtain ⟨hcur, hnext⟩ := hnew hn
    refine ⟨hcur, ?_⟩
    rw [hline, ← hnext]
    cases i.what.kind <;> rfl
  · rw [hline]
    exact hflight
  · rw [hline]
    exact startAttempt_queue i _

end

/-- Settles O40: the order of choice, a request's place, then line access command by command. -/
theorem framesContendForTheLine : Obligations.FramesContendForTheLine := by
  unfold Obligations.FramesContendForTheLine
  refine ⟨fun q i hnd h => chosen_by_class_and_order hnd h, fun q => chosen_eq_none, fun w s ha => request_placed ha, fun dt l s hp hrx => ?_⟩
  refine ⟨carrierStart_ends_quiet hp hrx, endOfCarrier_begins_quiet hp hrx, fun q hs hg hq hempty ht => idleGapEnd_notes_gap hp hs hg hq hempty ht, ?_⟩
  intro g i body hg hf hq hi hs hr hb
  exact ⟨holdoffEnd_waits hp hg hf hq hi hs hr, holdoffEnd_starts hp hg hf hq hi hr hb⟩

end Sys2Proof.Machine
end

section
/-! ## The end of an attempt and the timing of STATUS (R66 to R69, R71, R72) -/

namespace Sys2Proof.Machine

/-! ### What a STATUS asked for does to the line (R72) -/

/-- A STATUS asked for joins the end of the queue, or the queue stays; the frame in flight and the time at which the last STATUS left stay. -/
theorem askStatus_line (s : State) : ((askStatus s).line.queue = s.line.queue ∨ ∃ i, (askStatus s).line.queue = s.line.queue ++ [i])
    ∧ (askStatus s).line.flight = s.line.flight := by
  have hqueued (hn : statusQueued s = false) : ((queueStatus s).line.queue = s.line.queue ∨ ∃ i, (queueStatus s).line.queue = s.line.queue ++ [i])
      ∧ (queueStatus s).line.flight = s.line.flight := by
    rcases request_cases (w := .status) (by decide) s with ⟨-, he⟩ | ⟨⟨i, hi, hkey⟩, -⟩ | he
    · rw [queueStatus, he]
      exact ⟨.inl rfl, rfl⟩
    · rw [statusQueued, Option.isSome_eq_false_iff, Option.isNone_iff_eq_none, queuedUnder_eq_none] at hn
      exact absurd hkey (hn i hi)
    · rw [queueStatus, he]
      exact ⟨.inr ⟨_, rfl⟩, rfl⟩
  unfold askStatus
  split
  next h =>
    have hn : statusQueued s = false := by simpa using h.2
    split
    · split
      · exact hqueued hn
      · exact ⟨.inl rfl, rfl⟩
    · exact ⟨.inl rfl, rfl⟩
  · exact ⟨.inl rfl, rfl⟩

/-- Before the idle gap has ended a conclusion takes no frame out of the queue and starts none: it may only add a STATUS (R64, R72). -/
theorem conclude_without_gap {s0 s1 : State} (h : s0.line.gapEnd = none) :
    (∀ i ∈ s1.line.queue, i ∈ (conclude s0 s1).line.queue) ∧ (conclude s0 s1).line.flight = s1.line.flight := by
  unfold conclude
  extract_lets s2 s3 s4 s5
  have hl2 : s2.line = s1.line := judged_line s0 s1
  have h3 : (∀ i ∈ s1.line.queue, i ∈ s3.line.queue) ∧ s3.line.flight = s1.line.flight := by
    obtain ⟨hqueue, hflight⟩ := askStatus_line s2
    rw [hl2] at hqueue hflight
    unfold s3
    split
    · refine ⟨fun i hi => ?_, hflight⟩
      rcases hqueue with hq | ⟨j, hq⟩ <;> rw [hq]
      · exact hi
      · exact List.mem_append_left _ hi
    · rw [hl2]
      exact ⟨fun i hi => hi, rfl⟩
  have h5 : s5 = s4 := if_neg (by simp [readyNow_noGap h])
  have hl : (transmit s5).line = s4.line := (transmit_kept s5 .line (by decide)).trans (by rw [h5])
  obtain ⟨hq4, -, hf4⟩ := followQuiet_sameFrames s3
  rw [hl]
  unfold s4
  rw [hq4, hf4]
  exact h3

/-! ### The abort on one line (R66) -/

theorem readback_kept (l : Line) (remains : Bool) (s : State) : KeptBut [.line, .latches] s (readback l remains s) :=
  (((putLine_kept _ s).mono (by decide)).trans ((mapLine_kept _ l _).mono (by decide))).trans ((setLatch_kept _ _).mono (by decide))

/-- What a readback mismatch leaves on the line: the frame stopped on it, its carrier as the mismatch shows it, and the queue. -/
theorem readback_line {l : Line} {remains : Bool} {s : State} {f : Flight} (hf : s.line.flight = some f) :
    (readback l remains s).line.flight = some (f.stop l) ∧ (readback l remains s).line.queue = s.line.queue
      ∧ lineAt (readback l remains s) l = { lineAt s l with carrier := remains, blocked := remains }
      ∧ ∀ k, (lineAt (readback l remains s) k).health = (lineAt s k).health := by
  cases l <;> refine ⟨by simp [readback, mapLine, hf], rfl, rfl, fun k => by cases k <;> rfl⟩

theorem readbackMismatch_stops {dt : Nat} {s : State} {f : Flight} (hp : s.powered = true) (hf : s.line.flight = some f) {l : Line} (remains : Bool)
    (hd : drives s l = true) : ∃ t, exec (.readbackMismatch dt l remains) s = .next t ∧ t.line.flight = some (f.stop l)
      ∧ lineAt t l = { lineAt s l with carrier := remains, blocked := remains } ∧ t.line.queue = s.line.queue
      ∧ t.latches = s.latches.set .collisionSeen ∧ KeptBut (.latches :: watchedParts) (advance dt s) t := by
  have hwork : guarded (fun s => drives s l) (plain (readback l remains)) (advance dt s) = (readback l remains (advance dt s), []) :=
    guarded_apply (hd : drives (advance dt s) l = true)
  obtain ⟨he, hc, hkept⟩ := event_settles hp hwork (readback_kept l remains _) (by decide)
  obtain ⟨hflight, hqueue, hline, hhealth⟩ := readback_line (l := l) (remains := remains) (s := advance dt s) hf
  have hpub : published (readback l remains (advance dt s)) = published (advance dt s) := published_congr (readback_kept l remains _) (by decide) hhealth
  obtain ⟨q, g, hconc⟩ := conclude_line_in_flight (s0 := advance dt s) hpub hflight
  rw [← he] at hconc
  refine ⟨_, rfl, ?_, (hc.lineAt l).trans hline, ?_, ?_, hkept.mono (by decide)⟩
  · rw [hconc, hflight]
  · rw [hconc]
    exact hqueue
  · have hlatches : (readback l remains (advance dt s)).latches = s.latches.set .collisionSeen := by cases l <;> rfl
    exact Eq.trans (hc.kept .latches (by decide)) hlatches

/-! ### The end of an attempt (R66 to R68, R71) -/

/-- The work of FRAME_ATTEMPT_END. -/
def attemptOverWork (s : State) : Work :=
  match s.line.flight with
  | none => (s, [])
  | some f => if attemptOver s f then attemptEnd f s else (s, [])

theorem exec_frameAttemptEnd (dt : Nat) (s : State) : exec (.frameAttemptEnd dt) s = .next (event dt s attemptOverWork) := rfl

theorem statusLeft_line (w : TxWhat) (t : Time) (s : State) :
    (statusLeft w t s).line = { s.line with statusLeft := if w = .status then some t else s.line.statusLeft } := by
  unfold statusLeft
  split <;> rfl

/-- A frame sent: nothing in flight, TX_BLOCKED cleared, the start of a STATUS noted (R66, R67, R72). -/
theorem frameSent_line (f : Flight) (s : State) : (frameSent f s).line
    = { s.line with flight := none, statusLeft := if f.item.what = .status then some f.startMs else s.line.statusLeft } := by
  have hl := clearCond_kept (ownCond (endFlight s) .txBlocked 0) (endFlight s) .line (by decide)
  rw [frameSent, statusLeft_line, show (clearCond (ownCond (endFlight s) .txBlocked 0) (endFlight s)).line = (endFlight s).line from hl]
  rfl

theorem frameSent_hasCond (f : Flight) (s : State) : hasCond (frameSent f s) (ownCond s .txBlocked 0) = false :=
  (hasCond_congr (statusLeft_kept _ _ _ .conds (by decide)).1 _).trans (hasCond_clearCond _ _)

/-- A frame dropped: nothing in flight, TX_BLOCKED raised, the time of a STATUS noted (R67, R72). -/
theorem frameDropped_line (f : Flight) (s : State) : (frameDropped f s).line
    = { s.line with flight := none, statusLeft := if f.item.what = .status then some s.clock.ms else s.line.statusLeft } := by
  have hl := raiseCond_kept (ownCond (endFlight s) .txBlocked 0) (endFlight s) .line (by decide)
  rw [frameDropped, statusLeft_line, show (raiseCond (ownCond (endFlight s) .txBlocked 0) (endFlight s)).line = (endFlight s).line from hl]
  rfl

theorem frameDropped_hasCond {f : Flight} {s : State} (h : s.conds.length < 31) : hasCond (frameDropped f s) (ownCond s .txBlocked 0) = true :=
  (hasCond_congr (statusLeft_kept _ _ _ .conds (by decide)).1 _).trans (hasCond_raiseCond h)

/-- A frame retried: nothing in flight, TX_RETRY_SEEN set, the records of the lines kept (R67). -/
theorem frameRetried_still (f : Flight) (s : State) : (frameRetried f s).line.flight = none ∧ (frameRetried f s).latches = s.latches.set .txRetrySeen
    ∧ ∀ k, lineAt (frameRetried f s) k = lineAt s k := by
  unfold frameRetried
  extract_lets n s1
  split <;> exact ⟨rfl, rfl, fun k => by cases k <;> rfl⟩

/-- A frame retried returns to the end of the list, its place kept by its order, where its key is free (R68). -/
theorem frameRetried_returns {f : Flight} {s : State} (h : queuedUnder s.line.queue f.item.what.key = none) :
    (frameRetried f s).line.queue = s.line.queue ++ [{ f.item with attempts := f.item.attempts + 1 }] := by
  unfold frameRetried
  extract_lets n s1
  split
  next hsome => exact absurd (h.symm.trans hsome) (by simp)
  · rfl

/-- A frame retried hands its count to the frame of its key (R68). -/
theorem frameRetried_hands {f : Flight} {s : State} (h : queuedUnder s.line.queue f.item.what.key ≠ none) :
    (frameRetried f s).line.queue = s.line.queue.map fun i => if i.what.key = f.item.what.key then { i with attempts := f.item.attempts + 1 } else i := by
  unfold frameRetried
  extract_lets n s1
  split
  · rfl
  next hnone => exact absurd hnone h

/-- A failed attempt below the retry limit is retried, a SERVICE frame where it has a place (R67, R69). -/
theorem attemptFailed_retries {f : Flight} {s : State} (hn : f.noRetry = false)
    (hlimit : s.cfg.timing.retryLimit = 0 ∨ f.item.attempts + 1 < 16 * s.cfg.timing.retryLimit)
    (hplace : f.item.what.kind ≠ .service ∨ queuedUnder s.line.queue f.item.what.key ≠ none) : attemptFailed f s = frameRetried f s := by
  have hlow : ¬(1 ≤ s.cfg.timing.retryLimit ∧ 16 * s.cfg.timing.retryLimit ≤ f.item.attempts + 1) := by omega
  have hroom : ¬noPlace f s = true := by
    simp only [noPlace, Bool.and_eq_true, beq_iff_eq, Option.isNone_iff_eq_none]
    exact fun h => hplace.elim (· h.1.1) (· h.1.2)
  rw [attemptFailed, if_neg (by simp [hn]), if_neg hlow, if_neg hroom]

theorem attemptFailed_drops {f : Flight} {s : State} (hn : f.noRetry = false)
    (hlimit : 1 ≤ s.cfg.timing.retryLimit ∧ 16 * s.cfg.timing.retryLimit ≤ f.item.attempts + 1) : attemptFailed f s = frameDropped f s := by
  rw [attemptFailed, if_neg (by simp [hn]), if_pos hlimit]

/-- A frame that is not retried ends, or hands its count to the frame of its key (R68, R71). -/
theorem attemptFailed_unretried {f : Flight} {s : State} (hn : f.noRetry = true) :
    (queuedUnder s.line.queue f.item.what.key = none → attemptFailed f s = endFlight s)
      ∧ (queuedUnder s.line.queue f.item.what.key ≠ none → attemptFailed f s = frameRetried f s) := by
  rw [attemptFailed, if_pos hn]
  constructor
  · intro h
    rw [h]
  · intro h
    split
    · rfl
    next hnone => exact absurd hnone h

section

variable {dt : Nat} {s : State} {f : Flight} (hp : s.powered = true) (hf : s.line.flight = some f) (hg : s.line.gapEnd = none)
include hp hf hg

omit hf in
/-- The end of an attempt whose work gives no signal, in the idle gap: the frames of the queue stay, and nothing is in flight. -/
theorem frameAttemptEnd_ends {s1 : State} {l : List Part} (hwork : attemptOverWork (advance dt s) = (s1, [])) (hk : KeptBut l (advance dt s) s1)
    (hl : ∀ p ∈ [Part.sections, .peers, .firstFault], p ∉ l) (hflight : s1.line.flight = none) (hqueue : s1.line.queue = s.line.queue) :
    ∃ t, exec (.frameAttemptEnd dt) s = .next t ∧ t.line.flight = none ∧ (∀ i ∈ s.line.queue, i ∈ t.line.queue) ∧ Concluded s1 t
      ∧ KeptBut (l ++ watchedParts) (advance dt s) t := by
  obtain ⟨he, hc, hkept⟩ := event_settles hp hwork hk hl
  obtain ⟨hmem, hfl⟩ := conclude_without_gap (s0 := advance dt s) (s1 := s1) hg
  rw [← he] at hmem hfl
  exact ⟨_, exec_frameAttemptEnd dt s, hfl.trans hflight, fun i hi => hmem i (hqueue ▸ hi), hc, hkept⟩

theorem frameAttemptEnd_sent (hdriving : f.drivingA = true ∨ f.drivingB = true)
    (hend : (f.bytes.length * 15625 + 30) / 60 ≤ ((advance dt s).clock.us - f.startUs).toNat) (hhail : f.item.what ≠ .hail) :
    ∃ t, exec (.frameAttemptEnd dt) s = .next t ∧ t.line.flight = none ∧ hasCond t (ownCond s .txBlocked 0) = false
      ∧ t.line.statusLeft = (if f.item.what = .status then some f.startMs else s.line.statusLeft) ∧ (∀ i ∈ s.line.queue, i ∈ t.line.queue)
      ∧ KeptBut (.conds :: watchedParts) (advance dt s) t := by
  have hover : attemptOver (advance dt s) f = true := by
    have hran : frameUs f.bytes.length ≤ sinceUs (advance dt s) f.startUs := hend
    simp [attemptOver, hran]
  have hwork : attemptOverWork (advance dt s) = (frameSent f (advance dt s), []) := by
    simp only [attemptOverWork, advance_line, hf, hover, if_true, attemptEnd, if_pos hdriving, attemptSent, hhail, false_and, if_false]
  obtain ⟨t, ht, hflight, hmem, hc, hkept⟩ := frameAttemptEnd_ends hp hg hwork (frameSent_kept f _) (by decide)
    (by rw [frameSent_line]) (by rw [frameSent_line]; rfl)
  refine ⟨t, ht, hflight, ?_, ?_, hmem, hkept.mono (by decide)⟩
  · rw [hasCond_congr (hc.kept .conds (by decide)).1]
    exact frameSent_hasCond f (advance dt s)
  · rw [hc.watched.line_statusLeft, frameSent_line]
    rfl

variable (ha : f.drivingA = false) (hb : f.drivingB = false)
include ha hb

omit hp hg in
/-- An attempt aborted on both lines is over, and has failed (R66). -/
theorem attemptOverWork_aborted : attemptOverWork (advance dt s) = (attemptFailed f (advance dt s), []) := by
  have hover : attemptOver (advance dt s) f = true := by simp [attemptOver, ha, hb]
  simp [attemptOverWork, hf, hover, attemptEnd, ha, hb]

/-- A failed attempt that changes no published field: nothing in flight, and the queue as the work leaves it. -/
theorem frameAttemptEnd_failed {s1 : State} {l : List Part} (h1 : attemptFailed f (advance dt s) = s1) (hk : KeptBut l (advance dt s) s1)
    (hl : ∀ p ∈ [Part.sections, .peers, .firstFault, .phase, .dps, .barrier, .lights, .conds], p ∉ l) (hflight : s1.line.flight = none)
    (hhealth : ∀ k, lineAt s1 k = lineAt s k) : ∃ t, exec (.frameAttemptEnd dt) s = .next t ∧ t.line.flight = none
      ∧ t.line.queue = s1.line.queue ∧ Concluded s1 t ∧ KeptBut (l ++ watchedParts) (advance dt s) t := by
  have hwork := attemptOverWork_aborted (dt := dt) hf ha hb
  rw [h1] at hwork
  obtain ⟨he, hc, hkept⟩ := event_settles hp hwork hk fun p hp => hl p (by revert p; decide)
  have hpub : published s1 = published (advance dt s) := published_congr hk (fun p hp => hl p (by revert p; decide)) fun k => by
    rw [hhealth, lineAt_advance]
  have hline := conclude_line_unready hpub (readyNow_noGap hg _)
  rw [← he] at hline
  obtain ⟨hq, -, hfl⟩ := followQuiet_sameFrames s1
  refine ⟨_, exec_frameAttemptEnd dt s, ?_, ?_, hc, hkept⟩
  · rw [hline, hfl, hflight]
  · rw [hline, hq]

theorem frameAttemptEnd_retried {queue : List TxItem} (h1 : attemptFailed f (advance dt s) = frameRetried f (advance dt s))
    (hqueue : (frameRetried f (advance dt s)).line.queue = queue) :
    ∃ t, exec (.frameAttemptEnd dt) s = .next t ∧ t.line.flight = none ∧ t.line.queue = queue
      ∧ t.latches = s.latches.set .txRetrySeen ∧ KeptBut (.latches :: watchedParts) (advance dt s) t := by
  obtain ⟨hflight, hlatches, hlines⟩ := frameRetried_still f (advance dt s)
  obtain ⟨t, ht, hfl, hq, hc, hkept⟩ := frameAttemptEnd_failed hp hf hg ha hb h1 (frameRetried_kept f _) (by decide) hflight hlines
  exact ⟨t, ht, hfl, hq.trans hqueue, (hc.kept .latches (by decide)).trans hlatches, hkept.mono (by decide)⟩

theorem frameAttemptEnd_dropped (hn : f.noRetry = false) (h1 : 1 ≤ s.cfg.timing.retryLimit)
    (hlimit : 16 * s.cfg.timing.retryLimit ≤ f.item.attempts + 1) (hroom : s.conds.length < 31) :
    ∃ t, exec (.frameAttemptEnd dt) s = .next t ∧ t.line.flight = none ∧ hasCond t (ownCond s .txBlocked 0) = true
      ∧ (f.item.what = .status → t.line.statusLeft = some (advance dt s).clock.ms) ∧ (∀ i ∈ s.line.queue, i ∈ t.line.queue)
      ∧ KeptBut (.conds :: watchedParts) (advance dt s) t := by
  have hwork := attemptOverWork_aborted (dt := dt) hf ha hb
  rw [attemptFailed_drops (s := advance dt s) hn ⟨h1, hlimit⟩] at hwork
  obtain ⟨t, ht, hflight, hmem, hc, hkept⟩ := frameAttemptEnd_ends hp hg hwork (frameDropped_kept f _) (by decide)
    (by rw [frameDropped_line]) (by rw [frameDropped_line]; rfl)
  refine ⟨t, ht, hflight, ?_, fun hw => ?_, hmem, hkept.mono (by decide)⟩
  · rw [hasCond_congr (hc.kept .conds (by decide)).1]
    exact frameDropped_hasCond (s := advance dt s) hroom
  · rw [hc.watched.line_statusLeft, frameDropped_line]
    exact if_pos hw

theorem frameAttemptEnd_unretried (hn : f.noRetry = true) (hkey : queuedUnder s.line.queue f.item.what.key = none) :
    ∃ t, exec (.frameAttemptEnd dt) s = .next t ∧ t.line.flight = none ∧ t.line.queue = s.line.queue ∧ KeptBut watchedParts (advance dt s) t := by
  obtain ⟨t, ht, hfl, hq, -, hkept⟩ := frameAttemptEnd_failed hp hf hg ha hb ((attemptFailed_unretried (s := advance dt s) hn).1 hkey)
    (endFlight_kept _) (by decide) rfl fun k => by cases k <;> rfl
  exact ⟨t, ht, hfl, hq, hkept.mono (by decide)⟩

end

/-- Settles O41: the abort on one line, then the end of an attempt by what it has come to: sent, retried, dropped, not retried. -/
theorem attemptsEndInSuccessRetryOrDrop : Obligations.AttemptsEndInSuccessRetryOrDrop := by
  unfold Obligations.AttemptsEndInSuccessRetryOrDrop
  intro dt s f hp hf
  refine ⟨fun l remains hd => ?_, fun hdriving hend hhail hg => frameAttemptEnd_sent hp hf hg hdriving hend hhail, fun ha hb hn hg => ⟨fun hlimit => ?_, ?_⟩,
    fun ha hb hn hg => ⟨frameAttemptEnd_unretried hp hf hg ha hb hn, fun hkey => ?_⟩⟩
  · cases l <;> exact readbackMismatch_stops hp hf remains hd
  · refine ⟨fun hkind hkey => ?_, fun hkey => ?_⟩
    · exact frameAttemptEnd_retried hp hf hg ha hb (attemptFailed_retries hn hlimit (.inl hkind)) (frameRetried_returns (s := advance dt s) hkey)
    · exact frameAttemptEnd_retried hp hf hg ha hb (attemptFailed_retries hn hlimit (.inr hkey)) (frameRetried_hands (s := advance dt s) hkey)
  · exact frameAttemptEnd_dropped hp hf hg ha hb hn
  · exact frameAttemptEnd_retried hp hf hg ha hb ((attemptFailed_unretried hn).2 hkey) (frameRetried_hands (s := advance dt s) hkey)

/-! ### STATUS timing (R72) -/

/-- A STATUS can always be built. -/
theorem buildBody_status (s : State) : buildBody s .status = some (.status (statusBody s)) := rfl

/-- A STATUS queued is under way once the chosen frame has contended: it waits, or the attempt is its own (R66). -/
theorem underway_contend_status {s : State} (ho : s.line.Ordered) (hq : Queued .status s) : underway (contend s) .status := by
  unfold contend
  split
  · split
    · exact .inl hq
    next i hi =>
      split
      · obtain ⟨j, hj, hjw⟩ := hq
        by_cases hij : j.ord = i.ord
        · have hji : j = i := List.inj_on_of_nodup_map ho.1 hj (chosen_mem hi) hij
          subst hji
          obtain ⟨f, hf, hfw⟩ := startAttempt_flight (i := j) (s := s) (hjw ▸ buildBody_status s)
          exact .inr ⟨f, hf, hfw.trans hjw⟩
        · refine .inl ⟨j, ?_, hjw⟩
          rw [startAttempt_queue]
          exact List.mem_filter.2 ⟨hj, by simpa using hij⟩
      · exact .inl hq
  · exact .inl hq

/-- An attempt holds no change back (R72). -/
theorem contend_heldBack {s : State} (h : s.line.heldBack = false) : (contend s).line.heldBack = false := by
  have hbump (k : FrameKind) : (s.line.bumpSeq k).heldBack = s.line.heldBack := by cases k <;> rfl
  unfold contend
  split
  · split
    · exact h
    next i hi =>
      split
      · unfold startAttempt
        split
        · exact h
        · dsimp only
          split
          · rfl
          · split
            · rw [hbump, h]
            · exact h
      · exact h
  · exact h

/-- A STATUS that an event has queued is under way at the event's end, and no change is held back. -/
theorem underway_conclude_status {s0 s1 : State} (hp : published s1 = published s0) (ho : s1.line.Ordered) (hq : Queued .status s1)
    (hh : s1.line.heldBack = false) : underway (conclude s0 s1) .status ∧ (conclude s0 s1).line.heldBack = false := by
  obtain ⟨u, v, hline⟩ := followQuiet_line (judged s0 s1)
  rw [judged_line] at hline
  have h4 : (followQuiet (judged s0 s1)).line.Ordered ∧ Queued .status (followQuiet (judged s0 s1))
      ∧ (followQuiet (judged s0 s1)).line.heldBack = false := by
    unfold Queued LineUnit.Ordered
    rw [hline]
    exact ⟨ho, hq, hh⟩
  obtain ⟨ho4, hq4, hh4⟩ := h4
  have hl := conclude_line hp
  by_cases hr : readyNow s0 s1 = true
  · rw [if_pos hr] at hl
    obtain ⟨hqu, -, hfl⟩ := followQuiet_sameFrames (contend (followQuiet (judged s0 s1)))
    obtain ⟨x, y, hquiet⟩ := followQuiet_line (contend (followQuiet (judged s0 s1)))
    refine ⟨underway_congr ((congrArg _ hl).trans hqu) ((congrArg _ hl).trans hfl) (underway_contend_status ho4 hq4), ?_⟩
    rw [hl, contendNow, hquiet]
    exact contend_heldBack hh4
  · rw [if_neg hr] at hl
    exact ⟨underway_congr (congrArg _ hl) (congrArg _ hl) (.inl hq4), (congrArg _ hl).trans hh4⟩

theorem queueStatus_health (s : State) (k : Line) : (lineAt (queueStatus s) k).health = (lineAt s k).health :=
  congrArg LineRec.health (lineAt_congr (queueStatus_watched s).line_a (queueStatus_watched s).line_b k)

section

variable {dt : Nat} {s : State} {c : Time} (hp : s.powered = true) (hj : s.join.state = .joined) (hn : statusQueued s = false)
  (hc : statusLeftAt s = some c)
include hj hn hc

/-- In JOINED, with no STATUS queued, an interval has run since the last STATUS left where the clock says so. -/
theorem statusRan_iff (n : Nat) : statusRan (advance dt s) n = decide (n ≤ ((advance dt s).clock.ms - c).toNat) := by
  have hn' : statusQueued (advance dt s) = false := hn
  have hc' : statusLeftAt (advance dt s) = some c := hc
  rw [statusRan, hn', hc', advance_join, hj]
  rfl

include hp

omit hn hc in
/-- A command of the STATUS timing whose time has come queues a STATUS. -/
theorem statusTimer_queues {f : State → Work} (hl : QueueLaw s) (hwork : f (advance dt s) = (queueStatus (advance dt s), [])) :
    underway (event dt s f) .status ∧ (event dt s f).line.heldBack = false ∧ KeptBut watchedParts (advance dt s) (event dt s f) := by
  obtain ⟨he, -, hkept, hpub⟩ := event_line hp hwork (queueStatus_kept _) (queueStatus_health _)
  obtain ⟨-, -, hords, hlt, -⟩ := hl
  have hadmits : admits (advance dt s).join .status = true := by simp [admits, hj]
  have hordered : (queueStatus (advance dt s)).line.Ordered := request_ordered (w := .status) (by decide) ⟨hords, hlt⟩
  have hqueued : Queued .status (queueStatus (advance dt s)) := queued_request (by decide) hadmits
  obtain ⟨hunder, hheld⟩ := underway_conclude_status hpub hordered hqueued rfl
  rw [← he] at hunder hheld
  exact ⟨hunder, hheld, hkept⟩

theorem statusPeriodExpiry_queues (hl : QueueLaw s) (ht : s.cfg.timing.statusPeriod ≤ ((advance dt s).clock.ms - c).toNat) :
    ∃ t, exec (.statusPeriodExpiry dt) s = .next t ∧ underway t .status ∧ t.line.heldBack = false ∧ KeptBut watchedParts (advance dt s) t := by
  refine ⟨_, rfl, statusTimer_queues hp hj hl (guarded_apply ?_)⟩
  rw [statusRan_iff hj hn hc]
  exact decide_eq_true ht

theorem statusHoldbackEnd_queues (hl : QueueLaw s) (hh : s.line.heldBack = true) (ht : 40 ≤ ((advance dt s).clock.ms - c).toNat) :
    ∃ t, exec (.statusHoldbackEnd dt) s = .next t ∧ underway t .status ∧ t.line.heldBack = false ∧ KeptBut watchedParts (advance dt s) t := by
  refine ⟨_, rfl, statusTimer_queues hp hj hl (guarded_apply ?_)⟩
  rw [statusRan_iff hj hn hc, advance_line, hh]
  exact decide_eq_true ht

/-- Before the 40 ms have run the command only lets time pass (R72, log 2). -/
theorem statusHoldbackEnd_waits (ht : ((advance dt s).clock.ms - c).toNat < 40) : ∃ t, exec (.statusHoldbackEnd dt) s = .next t
    ∧ t.line.queue = s.line.queue ∧ t.line.flight = s.line.flight ∧ t.line.heldBack = s.line.heldBack
    ∧ KeptBut watchedParts (advance dt s) t := by
  have hwork : guarded (fun s => s.line.heldBack && statusRan s 40) (plain queueStatus) (advance dt s) = (advance dt s, []) := by
    rw [guarded, statusRan_iff hj hn hc, decide_eq_false (Nat.not_le.2 ht), Bool.and_false]
    rfl
  obtain ⟨he, -, hkept, hpub⟩ := event_line hp hwork (KeptBut.refl _ _) fun k => by rw [lineAt_advance]
  obtain ⟨q, g, hquiet⟩ := followQuiet_line (advance dt s)
  have hline := conclude_line_unready hpub (readyNow_still rfl id)
  rw [← he, hquiet] at hline
  refine ⟨_, rfl, ?_, ?_, ?_, hkept⟩ <;> rw [hline] <;> rfl

omit hp in
theorem askStatus_holds_back (ht : sinceMs s c < 40) : askStatus s = { s with line := { s.line with heldBack := true } } := by
  simp [askStatus, hj, hn, hc, Nat.not_le.2 ht]

end

/-- Settles O42: the two timers queue a STATUS at their times, the holdback not before, and a change before it is held back. -/
theorem statusFollowsItsPeriodAndHoldback : Obligations.StatusFollowsItsPeriodAndHoldback := by
  unfold Obligations.StatusFollowsItsPeriodAndHoldback
  refine ⟨fun dt s c hp hj hn hc hl => ⟨?_, ?_, ?_⟩, fun s c hj hn hc ht => askStatus_holds_back hj hn hc ht⟩
  · exact statusPeriodExpiry_queues hp hj hn hc hl
  · exact statusHoldbackEnd_queues hp hj hn hc hl
  · exact statusHoldbackEnd_waits hp hj hn hc

end Sys2Proof.Machine
end

section
/-! ## Reception: judgement, line health, the copy filter, and the expiries (R74 to R81, R175) -/

namespace Sys2Proof.Machine

/-! ### Line health (R78 to R81) -/

/-- A condition that stands after a raise is the one raised or stood before. -/
theorem hasCond_of_raiseCond {c d : CondId} {s : State} (h : hasCond (raiseCond c s) d = true) : d = c ∨ hasCond s d = true := by
  obtain ⟨e, he, hid⟩ := hasCond_iff.1 h
  rcases raiseCond_cases c s with ⟨-, hs⟩ | ⟨-, -, hs⟩ | ⟨-, -, -, -, -, hs⟩ | ⟨-, -, hs⟩
  · exact .inr (hasCond_of_ids hs d ▸ h)
  · rw [hs, mem_insertRanked] at he
    rcases he with rfl | he
    · exact .inl hid.symm
    · exact .inr (hasCond_iff.2 ⟨e, he, hid⟩)
  · rw [hs, mem_insertRanked] at he
    rcases he with rfl | he
    · exact .inl hid.symm
    · exact .inr (hasCond_iff.2 ⟨e, List.mem_of_mem_dropLast he, hid⟩)
  · exact .inr (hs ▸ h)

/-- The two lines have conditions of their own. -/
theorem lineCond_ne (s t : State) (l : Line) : lineCond s l ≠ lineCond t (otherLine l) := by
  intro h
  have hitem := congrArg CondId.item h
  cases l
  · exact absurd (show (0 : Fin 8) = 1 from hitem) (by decide)
  · exact absurd (show (1 : Fin 8) = 0 from hitem) (by decide)

theorem lineCond_congr {s t : State} (h : t.cfg = s.cfg) (l : Line) : lineCond t l = lineCond s l := by cases l <;> simp only [lineCond, ownCond, h]

theorem mapLine_cfg (f : LineRec → LineRec) (l : Line) (s : State) : (mapLine f l s).cfg = s.cfg := mapLine_kept f l s .cfg (by decide)

/-- The record of a line that has failed (R80). -/
def LineRec.fail (r : LineRec) : LineRec := { r with health := .failed, history := [], qualifying := 0 }

theorem lineFails_eq (l : Line) (s : State) :
    lineFails l s = raiseCond (lineCond s l) (setLatch (dropLatch l) (mapLine LineRec.fail l s)) := by
  have hc : lineCond (setLatch (dropLatch l) (mapLine LineRec.fail l s)) l = lineCond s l := lineCond_congr (mapLine_cfg _ l s) l
  rw [← hc]
  rfl

theorem lineFails_line (l : Line) (s : State) : (lineFails l s).line = (mapLine LineRec.fail l s).line := by
  rw [lineFails_eq]
  exact raiseCond_kept _ _ .line (by decide)

theorem lineFails_lineAt_same (l : Line) (s : State) : lineAt (lineFails l s) l = (lineAt s l).fail := by
  rw [lineAt_of_line (lineFails_line l s), lineAt_mapLine_same]

theorem lineFails_lineAt_other (l : Line) (s : State) : lineAt (lineFails l s) (otherLine l) = lineAt s (otherLine l) := by
  rw [lineAt_of_line (lineFails_line l s), lineAt_mapLine_other]

theorem otherLine_otherLine (l : Line) : otherLine (otherLine l) = l := by cases l <;> rfl

theorem lineFails_latches (l : Line) (s : State) : (lineFails l s).latches = s.latches.set (dropLatch l) := by
  rw [lineFails_eq, raiseCond_latches]
  cases l <;> rfl

theorem lineFails_hasCond {l : Line} {s : State} (h : s.conds.length < 31) : hasCond (lineFails l s) (lineCond s l) = true := by
  rw [lineFails_eq]
  refine hasCond_raiseCond ?_
  rw [setLatch_conds, (mapLine_kept _ l s .conds (by decide)).1]
  exact h

/-- The failure of a line raises no condition of the other. -/
theorem lineFails_hasCond_other {l : Line} {s : State} (h : hasCond s (lineCond s l) = false) : hasCond (lineFails (otherLine l) s) (lineCond s l) = false := by
  rw [lineFails_eq]
  refine Bool.eq_false_iff.2 fun hn => (hasCond_of_raiseCond hn).elim (lineCond_ne _ _ l) fun hs => ?_
  rw [hasCond_congr (setLatch_conds _ _), hasCond_congr (mapLine_kept _ _ s .conds (by decide)).1, h] at hs
  cases hs

/-- The state with a framing or CRC failure noted (R74, R78). -/
def failureNoted (l : Line) (s : State) : State := mapLine (LineRec.push false) l (setLatch .crcSeen s)

theorem failureNoted_kept (l : Line) (s : State) : KeptBut [.line, .latches] s (failureNoted l s) :=
  ((setLatch_kept _ s).mono (by decide)).trans ((mapLine_kept _ l _).mono (by decide))

theorem failureNoted_latches (l : Line) (s : State) : (failureNoted l s).latches = s.latches.set .crcSeen := by cases l <;> rfl

theorem failureNoted_lineAt (l : Line) (s : State) : lineAt (failureNoted l s) l = (lineAt s l).push false := by
  rw [failureNoted, lineAt_mapLine_same]
  exact congrArg (LineRec.push false) (lineAt_of_line rfl l)

/-- A failure fails a QUALIFYING line, and a GOOD one where four failures or more are held (R80, log 52). -/
def failsNow (r : LineRec) : Prop := r.health = .qualifying ∨ (r.health = .good ∧ 4 ≤ ((r.push false).history.filter (! ·)).length)

theorem lineCrcFailure_cases (l : Line) (s : State) :
    (failsNow (lineAt s l) → lineCrcFailure l s = lineFails l (failureNoted l s))
      ∧ (¬failsNow (lineAt s l) → lineCrcFailure l s = failureNoted l s) := by
  have hl := failureNoted_lineAt l s
  have hh : (lineAt (failureNoted l s) l).health = (lineAt s l).health := by
    rw [hl]
    rfl
  unfold lineCrcFailure failsNow
  extract_lets s1
  have h1 : s1 = failureNoted l s := rfl
  rw [h1, hh, hl]
  cases (lineAt s l).health with
  | good => simp +contextual
  | qualifying => simp
  | failed => simp

/-! ### A frame received (R74 to R77) -/

/-- A frame judged is work on the line; where it changes peers' line flags, nothing that the phase unit watches (R76, R94, R106). -/
theorem secondCopy_watched (l : Line) (f : Frame) (s : State) : (secondCopy l f s).peers.map Peer.watched = s.peers.map Peer.watched := by
  have hseen (p : Peer) : (p.seen l).watched = p.watched := by cases l <;> rfl
  unfold secondCopy
  split
  · split
    · rfl
    · simp only [List.map_map]
      refine List.map_congr_left fun p _ => ?_
      simp only [Function.comp]
      split
      · exact hseen p
      · rfl
  · rfl

/-- What a second copy leaves of the line: the hand-over alone may change. -/
theorem secondCopy_line (l : Line) (f : Frame) (s : State) : ∃ acc, (secondCopy l f s).line = { s.line with accepted := acc } := by
  unfold secondCopy
  split
  · split <;> exact ⟨_, rfl⟩
  · exact ⟨_, rfl⟩

/-- A second copy sets its line's flag at the STATUS that still waits for its block (R76, R94). -/
theorem secondCopy_accepted (l : Line) (f : Frame) (s : State) : (secondCopy l f s).line.accepted = s.line.accepted.map fun a =>
    if f.body.kind = .status ∧ a.source = f.source ∧ a.body.kind = .status ∧ a.seq = f.seq then
      { a with onA := a.onA || decide (l = .a), onB := a.onB || decide (l = .b) } else a := by
  have hline (a : Accepted) : a.onLine l = { a with onA := a.onA || decide (l = .a), onB := a.onB || decide (l = .b) } := by
    cases l <;> simp [Accepted.onLine]
  unfold secondCopy
  split
  next hk =>
    have his (a : Accepted) : a.is f = true ↔ a.source = f.source ∧ a.body.kind = .status ∧ a.seq = f.seq := by
      simp [Accepted.is, hk, and_assoc]
    split
    · refine List.map_congr_left fun a _ => ?_
      simp only [his, hk, true_and, hline]
    next hnone =>
      conv_lhs => rw [← List.map_id s.line.accepted]
      refine List.map_congr_left fun a ha => ?_
      rw [if_neg fun h => hnone (List.any_eq_true.2 ⟨a, ha, (his a).2 h.2⟩)]
      rfl
  next hk => simp [hk]

/-- A valid frame that does not pass the screen counts at its line alone (R75, R199). -/
theorem receive_unscreened {l : Line} {bytes : List Byte} {s : State} (h : judgeFrame s.cfg.crossing bytes = .valid)
    (hs : screen (lineValid l s) bytes = none) : receive l bytes s = lineValid l s := by
  unfold receive
  rw [h]
  dsimp only
  rw [hs]

/-- A valid frame that passes the screen goes on to the copy filter (R76). -/
theorem receive_screened {l : Line} {bytes : List Byte} {s : State} {f : Frame} (h : judgeFrame s.cfg.crossing bytes = .valid)
    (hs : screen (lineValid l s) bytes = some f) :
    receive l bytes s = if remembers (lineValid l s) f then secondCopy l f (lineValid l s) else acceptFrame l f (lineValid l s) := by
  unfold receive
  rw [h]
  dsimp only
  rw [hs]

/-- A valid frame leaves the line records and the condition set as `lineValid` leaves them, and of the peers what the phase unit watches. -/
theorem receive_valid_still {l : Line} {bytes : List Byte} {s : State} (h : judgeFrame s.cfg.crossing bytes = .valid) :
    (∀ k, lineAt (receive l bytes s) k = lineAt (lineValid l s) k) ∧ (receive l bytes s).conds = (lineValid l s).conds
      ∧ (receive l bytes s).peers.map Peer.watched = s.peers.map Peer.watched := by
  have hpeers : (lineValid l s).peers = s.peers := lineValid_kept l s .peers (by decide)
  cases hs : screen (lineValid l s) bytes with
  | none =>
    rw [receive_unscreened h hs]
    exact ⟨fun _ => rfl, rfl, by rw [hpeers]⟩
  | some f =>
    rw [receive_screened h hs]
    split
    · obtain ⟨acc, hacc⟩ := secondCopy_line l f (lineValid l s)
      refine ⟨fun k => lineAt_congr (by rw [hacc]) (by rw [hacc]) k, (secondCopy_kept l f _ .conds (by decide)).1, ?_⟩
      rw [secondCopy_watched, hpeers]
    · exact ⟨fun k => by cases k <;> rfl, rfl, congrArg _ hpeers⟩

/-- The copy filter's memory is read from its entries and the clock (R76). -/
theorem remembers_congr {s t : State} (hf : t.line.filter = s.line.filter) (hc : t.clock = s.clock) (f : Frame) : remembers t f = remembers s f := by
  unfold remembers sinceMs
  rw [hf, hc]

theorem flashOffset_congr {s t : State} (hf : t.flash = s.flash) (hg : t.cfg = s.cfg) (hc : t.clock = s.clock) : flashOffset t = flashOffset s := by
  unfold flashOffset flashCycle sinceMs
  rw [hf, hg, hc]

/-- A valid frame's line: its history, the time of its last valid frame, its qualification (R78, R79, R81). -/
theorem lineValid_lineAt (l : Line) (s : State) : lineAt (lineValid l s) l = (({ lineAt s l with lastValid := s.clock.ms }).push true).qualify := by
  unfold lineValid
  extract_lets s1 s2
  have h1 : lineAt s1 l = (({ lineAt s l with lastValid := s.clock.ms }).push true).qualify :=
    lineAt_mapLine_same (fun r => (({ r with lastValid := s.clock.ms }).push true).qualify) l s
  have h2 : lineAt s2 l = lineAt s1 l := by
    unfold s2
    split
    · exact lineAt_of_line (clearCond_kept _ s1 .line (by decide)) l
    · rfl
  rw [← h1, ← h2]
  split
  · have hother := lineFails_lineAt_other (otherLine l) s2
    rwa [otherLine_otherLine] at hother
  · rfl

/-- The frame that makes a line GOOD clears its LINE_FAILED (R81). -/
theorem lineValid_clears {l : Line} {s : State} (hq : (lineAt s l).health = .qualifying) (h8 : 8 ≤ (lineAt s l).qualifying + 1) :
    hasCond (lineValid l s) (lineCond s l) = false := by
  unfold lineValid
  extract_lets s1 s2
  have h1 : lineAt s1 l = (({ lineAt s l with lastValid := s.clock.ms }).push true).qualify :=
    lineAt_mapLine_same (fun r => (({ r with lastValid := s.clock.ms }).push true).qualify) l s
  have hgood : (lineAt s1 l).health = .good := by
    rw [h1]
    simp [LineRec.qualify, LineRec.push, hq, h8]
  have hcond : lineCond s1 l = lineCond s l := lineCond_congr (mapLine_cfg _ l s) l
  have h2 : s2 = clearCond (lineCond s l) s1 := by
    unfold s2
    rw [if_pos ⟨by simp [hq], hgood⟩, hcond]
  have hs2 : hasCond s2 (lineCond s l) = false := h2 ▸ hasCond_clearCond _ _
  have hcond2 : lineCond s2 l = lineCond s l := by
    rw [h2, lineCond_congr (clearCond_cfg _ _), hcond]
  split
  · rw [← hcond2]
    exact lineFails_hasCond_other (hcond2.symm ▸ hs2)
  · exact hs2

/-- A valid frame moves nothing else of the line controller: the copy filter, the hand-over (R76, R77). -/
theorem lineValid_line (l : Line) (s : State) : (lineValid l s).line.filter = s.line.filter ∧ (lineValid l s).line.accepted = s.line.accepted := by
  have hmap (f : LineRec → LineRec) (k : Line) (t : State) : (mapLine f k t).line.filter = t.line.filter ∧ (mapLine f k t).line.accepted = t.line.accepted := by
    cases k <;> exact ⟨rfl, rfl⟩
  unfold lineValid
  extract_lets s1 s2
  have h1 := hmap (fun r => (({ r with lastValid := s.clock.ms }).push true).qualify) l s
  have h2 : s2.line = s1.line := by
    unfold s2
    split
    · exact clearCond_kept _ s1 .line (by decide)
    · rfl
  split
  · rw [lineFails_line]
    have h3 := hmap LineRec.fail (otherLine l) s2
    rw [h2] at h3
    exact ⟨h3.1.trans h1.1, h3.2.trans h1.2⟩
  · rw [h2]
    exact h1

section

variable {dt : Nat} {l : Line} {bytes : List Byte} {s : State} (hp : s.powered = true) (hl : listens s l = true)

include hl in
theorem frameReceived_work : guarded (fun s => listens s l) (plain (receive l bytes)) (advance dt s) = (receive l bytes (advance dt s), []) :=
  guarded_apply (hl : listens (advance dt s) l = true)

include hp hl

/-- A framing or CRC failure that does not fail the line joins its history alone (R74, R78). -/
theorem frameReceived_failure_noted (hj : judgeFrame s.cfg.crossing bytes = .framingFailure ∨ judgeFrame s.cfg.crossing bytes = .crcFailure)
    (hn : ¬failsNow (lineAt s l)) : ∃ t, exec (.frameReceived dt l bytes) s = .next t
      ∧ lineAt t l = { lineAt s l with history := (false :: (lineAt s l).history).take 16 }
      ∧ t.latches = s.latches.set .crcSeen ∧ t.line.accepted = s.line.accepted ∧ KeptBut (.latches :: watchedParts) (advance dt s) t := by
  have hwork : receive l bytes (advance dt s) = failureNoted l (advance dt s) := by
    rw [← (lineCrcFailure_cases l (advance dt s)).2 (by rwa [lineAt_advance])]
    unfold receive
    rcases hj with hj | hj <;> rw [advance_cfg, hj]
  obtain ⟨-, hc, hkept⟩ := event_settles hp ((frameReceived_work hl).trans (congrArg (·, []) hwork)) (failureNoted_kept l _) (by decide)
  refine ⟨_, rfl, ?_, ?_, ?_, hkept.mono (by decide)⟩
  · rw [hc.lineAt, failureNoted_lineAt, lineAt_advance]
    rfl
  · exact Eq.trans (hc.kept .latches (by decide)) (failureNoted_latches l (advance dt s))
  · rw [hc.watched.line_accepted]
    cases l <;> rfl

/-- A framing or CRC failure that fails the line (R80). -/
theorem frameReceived_fails (hj : judgeFrame s.cfg.crossing bytes = .framingFailure ∨ judgeFrame s.cfg.crossing bytes = .crcFailure)
    (hn : failsNow (lineAt s l)) (hroom : s.conds.length < 31) : ∃ t, exec (.frameReceived dt l bytes) s = .next t
      ∧ (lineAt t l).health = .failed ∧ (lineAt t l).history = [] ∧ t.latches = (s.latches.set .crcSeen).set (dropLatch l)
      ∧ hasCond t (lineCond s l) = true ∧ KeptBut (.latches :: .conds :: watchedParts) (advance dt s) t := by
  have hwork : receive l bytes (advance dt s) = lineFails l (failureNoted l (advance dt s)) := by
    rw [← (lineCrcFailure_cases l (advance dt s)).1 (by rwa [lineAt_advance])]
    unfold receive
    rcases hj with hj | hj <;> rw [advance_cfg, hj]
  have hk : KeptBut [.line, .latches, .conds, .notices] (advance dt s) (lineFails l (failureNoted l (advance dt s))) :=
    ((failureNoted_kept l _).mono (by decide)).trans (lineFails_kept l _)
  obtain ⟨-, hc, hkept⟩ := event_settles hp ((frameReceived_work hl).trans (congrArg (·, []) hwork)) hk (by decide)
  have hline := hc.lineAt l
  rw [lineFails_lineAt_same] at hline
  refine ⟨_, rfl, congrArg LineRec.health hline, congrArg LineRec.history hline, ?_, ?_, hkept.mono (by decide)⟩
  · refine Eq.trans (hc.kept .latches (by decide)) ?_
    rw [lineFails_latches, failureNoted_latches]
    rfl
  · have hcond : lineCond (failureNoted l (advance dt s)) l = lineCond s l := lineCond_congr (failureNoted_kept l _ .cfg (by decide)) l
    rw [hasCond_congr (hc.kept .conds (by decide)).1, ← hcond]
    refine lineFails_hasCond ?_
    rw [(failureNoted_kept l (advance dt s) .conds (by decide)).1]
    exact hroom

/-- A frame of another crossing joins the history alone (R75, R78). -/
theorem frameReceived_foreign (hj : judgeFrame s.cfg.crossing bytes = .foreign) : ∃ t, exec (.frameReceived dt l bytes) s = .next t
    ∧ lineAt t l = { lineAt s l with history := (true :: (lineAt s l).history).take 16 } ∧ t.line.accepted = s.line.accepted
    ∧ KeptBut watchedParts (advance dt s) t := by
  have hwork : receive l bytes (advance dt s) = mapLine (LineRec.push true) l (advance dt s) := by
    unfold receive
    rw [advance_cfg, hj]
  obtain ⟨-, hc, hkept⟩ := event_settles hp ((frameReceived_work hl).trans (congrArg (·, []) hwork)) (mapLine_kept _ l _) (by decide)
  refine ⟨_, rfl, ?_, ?_, hkept.mono (by decide)⟩
  · rw [hc.lineAt, lineAt_mapLine_same, lineAt_advance]
    rfl
  · rw [hc.watched.line_accepted]
    cases l <;> rfl

/-- The event of a valid frame is its work and its conclusion. -/
theorem frameReceived_valid_concluded (hj : judgeFrame s.cfg.crossing bytes = .valid) :
    Concluded (receive l bytes (advance dt s)) (event dt s (guarded (fun s => listens s l) (plain (receive l bytes)))) := by
  have hk := receive_kept l bytes (advance dt s)
  have hsections : (receive l bytes (advance dt s)).sections = (advance dt s).sections := hk .sections (by decide)
  have hfirst := hk .firstFault (by decide)
  obtain ⟨-, -, hpeers⟩ := receive_valid_still (l := l) (s := advance dt s) hj
  have hstill : phaseInputsChanged (advance dt s) (receive l bytes (advance dt s)) = false := by
    simp only [phaseInputsChanged, hpeers, hsections, bne_self_eq_false, Bool.or_false]
  rw [event_eq hp, frameReceived_work hl, hstill]
  exact conclude_concluded hfirst

/-- A valid frame at its line by the line's health (R79, R81). -/
theorem frameReceived_valid (hj : judgeFrame s.cfg.crossing bytes = .valid) : ∃ t, exec (.frameReceived dt l bytes) s = .next t
    ∧ (lineAt t l).history = (true :: (lineAt s l).history).take 16 ∧ (lineAt t l).lastValid = (advance dt s).clock.ms
    ∧ ((lineAt s l).health = .failed → (lineAt t l).health = .qualifying ∧ (lineAt t l).qualifying = 1)
    ∧ ((lineAt s l).health = .qualifying → (lineAt s l).qualifying + 1 < 8 →
        (lineAt t l).health = .qualifying ∧ (lineAt t l).qualifying = (lineAt s l).qualifying + 1)
    ∧ ((lineAt s l).health = .qualifying → 8 ≤ (lineAt s l).qualifying + 1 → (lineAt t l).health = .good ∧ hasCond t (lineCond s l) = false)
    ∧ ((lineAt s l).health = .good → (lineAt t l).health = .good) := by
  have hc := frameReceived_valid_concluded (dt := dt) hp hl hj
  obtain ⟨hlines, hconds, -⟩ := receive_valid_still (l := l) (s := advance dt s) hj
  have hline := (hc.lineAt l).trans ((hlines l).trans (lineValid_lineAt l (advance dt s)))
  rw [lineAt_advance] at hline
  refine ⟨_, rfl, ?_⟩
  rw [hline]
  refine ⟨?_, ?_, fun h => ?_, fun h h8 => ?_, fun h h8 => ⟨?_, ?_⟩, fun h => ?_⟩
  · unfold LineRec.qualify
    split
    · rfl
    · split <;> rfl
    · rfl
  · unfold LineRec.qualify
    split
    · rfl
    · split <;> rfl
    · rfl
  · simp [LineRec.qualify, LineRec.push, h]
  · simp [LineRec.qualify, LineRec.push, h, Nat.not_le.2 h8]
  · simp [LineRec.qualify, LineRec.push, h, h8]
  · rw [hasCond_congr ((hc.kept .conds (by decide)).1.trans hconds)]
    exact lineValid_clears (s := advance dt s) (by rwa [lineAt_advance]) (by rwa [lineAt_advance])
  · simp [LineRec.qualify, LineRec.push, h]

variable {f : Frame} (hj : judgeFrame s.cfg.crossing bytes = .valid) (hr : readFrame bytes = some f) (ho : f.source ≠ s.cfg.own)
  (hst : ∃ e ∈ s.cfg.stations, e.number = f.source)
include hj hr ho hst

omit hp hl in
/-- A valid frame of another station of the list passes the screen, to the copy filter as it stood (R75, R76, R199). -/
theorem receive_listed : receive l bytes (advance dt s)
    = if remembers (advance dt s) f then secondCopy l f (lineValid l (advance dt s)) else acceptFrame l f (lineValid l (advance dt s)) := by
  have hcfg : (lineValid l (advance dt s)).cfg = s.cfg := lineValid_kept l (advance dt s) .cfg (by decide)
  have hclock : (lineValid l (advance dt s)).clock = (advance dt s).clock := lineValid_kept l (advance dt s) .clock (by decide)
  have hscreen : screen (lineValid l (advance dt s)) bytes = some f := by
    obtain ⟨e, he, hnum⟩ := hst
    have hany : s.cfg.stations.any (fun e => e.number == f.source) = true := List.any_eq_true.2 ⟨e, he, by simpa using hnum⟩
    simp [screen, hr, hcfg, ho, hany]
  have hremembers : remembers (lineValid l (advance dt s)) f = remembers (advance dt s) f :=
    remembers_congr (lineValid_line l (advance dt s)).1 hclock f
  rw [receive_screened (s := advance dt s) hj hscreen, hremembers]

/-- A frame that the copy filter does not remember is remembered and handed on (R76, R77). -/
theorem frameReceived_accepted (hn : remembers (advance dt s) f = false) : ∃ t, exec (.frameReceived dt l bytes) s = .next t
    ∧ t.line.accepted = s.line.accepted ++ [{
        source := f.source, seq := f.seq, body := f.body, onA := decide (l = .a), onB := decide (l = .b),
        endMs := (advance dt s).clock.ms, flashAt := flashOffset (advance dt s) }]
    ∧ t.line.filter = s.line.filter ++ [{ source := f.source, kind := f.body.kind, seq := f.seq, time := (advance dt s).clock.ms }]
    ∧ (lineAt t l).lastValid = (advance dt s).clock.ms ∧ KeptBut (.latches :: .conds :: watchedParts) (advance dt s) t := by
  have hwork : receive l bytes (advance dt s) = acceptFrame l f (lineValid l (advance dt s)) := by
    rw [receive_listed hj hr ho hst, hn]
    rfl
  have hk : KeptBut [.line, .latches, .conds, .notices] (advance dt s) (acceptFrame l f (lineValid l (advance dt s))) :=
    (lineValid_kept l _).trans ((acceptFrame_kept l f _).mono (by decide))
  have hclock : (lineValid l (advance dt s)).clock = (advance dt s).clock := lineValid_kept l (advance dt s) .clock (by decide)
  have hflash : flashOffset (lineValid l (advance dt s)) = flashOffset (advance dt s) :=
    flashOffset_congr (lineValid_kept l _ .flash (by decide)) (lineValid_kept l _ .cfg (by decide)) hclock
  obtain ⟨hfilter, haccepted⟩ := lineValid_line l (advance dt s)
  obtain ⟨-, hc, hkept⟩ := event_settles hp ((frameReceived_work hl).trans (congrArg (·, []) hwork)) hk (by decide)
  obtain ⟨t, ht, -, hlast, -⟩ := frameReceived_valid (dt := dt) hp hl hj
  cases ht
  refine ⟨_, rfl, ?_, ?_, hlast, hkept.mono (by decide)⟩
  · rw [hc.watched.line_accepted]
    simp only [acceptFrame, haccepted, hclock, hflash]
    cases l <;> rfl
  · rw [hc.watched.line_filter]
    simp only [acceptFrame, hfilter, hclock]
    rfl

/-- A frame that the copy filter remembers is a second copy: its line is noted at the STATUS that still waits, and it is handed on no more (R76). -/
theorem frameReceived_secondCopy (hn : remembers (advance dt s) f = true) : ∃ t, exec (.frameReceived dt l bytes) s = .next t
    ∧ t.line.accepted = s.line.accepted.map (fun a =>
        if f.body.kind = .status ∧ a.source = f.source ∧ a.body.kind = .status ∧ a.seq = f.seq then
          { a with onA := a.onA || decide (l = .a), onB := a.onB || decide (l = .b) } else a)
    ∧ t.line.filter = s.line.filter ∧ (lineAt t l).lastValid = (advance dt s).clock.ms := by
  have hwork : receive l bytes (advance dt s) = secondCopy l f (lineValid l (advance dt s)) := by
    rw [receive_listed hj hr ho hst, hn]
    rfl
  have hc := frameReceived_valid_concluded (dt := dt) hp hl hj
  rw [hwork] at hc
  obtain ⟨hfilter, haccepted⟩ := lineValid_line l (advance dt s)
  obtain ⟨t, ht, -, hlast, -⟩ := frameReceived_valid (dt := dt) hp hl hj
  cases ht
  refine ⟨_, rfl, ?_, ?_, hlast⟩
  · rw [hc.watched.line_accepted, secondCopy_accepted, haccepted]
    rfl
  · obtain ⟨acc, hacc⟩ := secondCopy_line l f (lineValid l (advance dt s))
    rw [hc.watched.line_filter, hacc]
    exact hfilter

end

/-- Settles O43 by the judgement of the frame: a failure that fails its line or does not, a frame of another crossing, a valid frame at its line, and at
the copy filter. -/
theorem receivedFramesAreJudged : Obligations.ReceivedFramesAreJudged := by
  unfold Obligations.ReceivedFramesAreJudged
  intro dt l bytes s hp hl
  refine ⟨fun hj => ⟨fun hg h4 => ?_, fun hf => ?_, fun hn hroom => ?_⟩, frameReceived_foreign hp hl, fun hj => ?_, fun f hj hr ho hst =>
    ⟨frameReceived_accepted hp hl hj hr ho hst, frameReceived_secondCopy hp hl hj hr ho hst⟩⟩
  · exact frameReceived_failure_noted hp hl hj fun hn => by
      rcases hn with hn | ⟨-, hn⟩
      · simp [hg] at hn
      · exact absurd hn (Nat.not_le.2 h4)
  · exact frameReceived_failure_noted hp hl hj fun hn => by simp [failsNow, hf] at hn
  · cases l <;> exact frameReceived_fails hp hl hj hn hroom
  · cases l <;> exact frameReceived_valid hp hl hj

/-! ### Silence and expiries (R76, R79, R175) -/

section

variable {dt : Nat} {s : State} (hp : s.powered = true)
include hp

theorem lineSilence_fails {l : Line} (hrx : s.line.rxOn = true) (hh : (lineAt s l).health ≠ .failed)
    (ht : s.cfg.timing.silenceLimit ≤ ((advance dt s).clock.ms - (lineAt s l).lastValid).toNat)
    (ho : ((advance dt s).clock.ms - (lineAt s (otherLine l)).lastValid).toNat < s.cfg.timing.silenceLimit) (hroom : s.conds.length < 31) :
    ∃ t, exec (.lineSilence dt l) s = .next t ∧ lineAt t l = { lineAt s l with health := .failed, history := [], qualifying := 0 }
      ∧ lineAt t (otherLine l) = lineAt s (otherLine l) ∧ t.latches = s.latches.set (dropLatch l) ∧ hasCond t (lineCond s l) = true
      ∧ KeptBut (.latches :: .conds :: watchedParts) (advance dt s) t := by
  have hsilent : silent (advance dt s) l = true := by
    have hself : s.cfg.timing.silenceLimit ≤ sinceMs (advance dt s) (lineAt s l).lastValid := ht
    have hother : sinceMs (advance dt s) (lineAt s (otherLine l)).lastValid < s.cfg.timing.silenceLimit := ho
    simp [silent, hh, hself, hother]
  have hwork : guarded (fun s => s.line.rxOn && silent s l) (plain (lineFails l)) (advance dt s) = (lineFails l (advance dt s), []) :=
    guarded_apply (by rw [advance_line, hrx, hsilent]; rfl)
  obtain ⟨-, hc, hkept⟩ := event_settles hp hwork (lineFails_kept l _) (by decide)
  refine ⟨_, rfl, ?_, ?_, ?_, ?_, hkept.mono (by decide)⟩
  · rw [hc.lineAt, lineFails_lineAt_same, lineAt_advance]
    rfl
  · rw [hc.lineAt, lineFails_lineAt_other, lineAt_advance]
  · exact Eq.trans (hc.kept .latches (by decide)) (lineFails_latches l (advance dt s))
  · rw [hasCond_congr (hc.kept .conds (by decide)).1]
    exact lineFails_hasCond (s := advance dt s) hroom

theorem copyFilterEntryExpiry_drops {e : FilterEntry} {rest : List FilterEntry} (hf : s.line.filter = e :: rest)
    (ht : 1000 ≤ ((advance dt s).clock.ms - e.time).toNat) :
    ∃ t, exec (.copyFilterEntryExpiry dt) s = .next t ∧ Concluded { advance dt s with line := { s.line with filter := rest } } t := by
  have hran : 1000 ≤ sinceMs (advance dt s) e.time := ht
  have hexpires : filterExpires (advance dt s) = true := by simp [filterExpires, hf, hran]
  refine ⟨_, rfl, event_concluded hp ((guarded_apply hexpires).trans ?_) rfl rfl rfl⟩
  simp [plain, hf]

theorem infoConditionExpiry_clears {e : CondEntry} {x : Time} (he : e ∈ s.conds) (hx : e.expiry = some x)
    (hr : reached (advance dt s).clock.ms x = true) : ∃ t, exec (.infoConditionExpiry dt e.id) s = .next t
      ∧ t.conds = s.conds.filter (fun d => d.id ≠ e.id) ∧ KeptBut (.conds :: watchedParts) (advance dt s) t := by
  have hexpired : condExpired (advance dt s) e.id = true := List.any_eq_true.2 ⟨e, he, by simp only [hx, Option.any_some, hr, beq_self_eq_true, Bool.and_self]⟩
  have hwork : guarded (fun s => condExpired s e.id) (plain (clearCond e.id)) (advance dt s) = (clearCond e.id (advance dt s), []) :=
    guarded_apply hexpired
  obtain ⟨-, hc, hkept⟩ := event_settles hp hwork (clearCond_kept e.id _) (by decide)
  exact ⟨_, rfl, (hc.kept .conds (by decide)).1.trans (clearCond_conds e.id (advance dt s)), hkept.mono (by decide)⟩

end

/-- Settles O44, each command at its time. -/
theorem silenceAndExpiriesTakeTheirTimes : Obligations.SilenceAndExpiriesTakeTheirTimes := by
  unfold Obligations.SilenceAndExpiriesTakeTheirTimes
  intro dt s hp
  refine ⟨fun l hrx hh ht ho hroom => ?_, fun e rest => copyFilterEntryExpiry_drops hp, fun e x => infoConditionExpiry_clears hp⟩
  cases l <;> exact lineSilence_fails hp hrx hh ht ho hroom

end Sys2Proof.Machine
end

section
/-! ## The frames of the crossing line read back (R82 to R85, R198, R199; chapter 12) -/

namespace Sys2Proof.Machine

/-! ### Numbers and bits of bytes -/

theorem toNat_byte {n : Nat} (h : n < 256) : (BitVec.ofNat 8 n).toNat = n := by
  rw [BitVec.toNat_ofNat]
  exact Nat.mod_eq_of_lt h

theorem bitsOf_byte {n : Nat} (h : n < 256) (i k : Nat) : bitsOf (BitVec.ofNat 8 n) i k = n / 2 ^ i % 2 ^ k := by rw [bitsOf, toNat_byte h]

theorem bitOf_byte {n : Nat} (h : n < 256) (i : Nat) : bitOf (BitVec.ofNat 8 n) i = decide (n / 2 ^ i % 2 = 1) := by
  rw [bitOf, BitVec.getLsbD, toNat_byte h, Nat.testBit_eq_decide_div_mod_eq]

theorem halfOf_halfBytes (w : Half) : halfOf (w.extractLsb' 8 8) (w.extractLsb' 0 8) = w := by
  rw [halfOf, BitVec.extractLsb'_append_extractLsb'_eq_extractLsb' (show 8 = 0 + 8 from rfl)]
  exact BitVec.extractLsb'_eq_self

theorem natOf2_nat2 {n : Nat} (h : n < 65536) : natOf2 (BitVec.ofNat 8 (n / 256)) (BitVec.ofNat 8 n) = n := by
  rw [natOf2, BitVec.toNat_ofNat, BitVec.toNat_ofNat]
  omega

theorem natOf3_nat3 {n : Nat} (h : n < 16777216) : natOf3 (BitVec.ofNat 8 (n / 65536)) (BitVec.ofNat 8 (n / 256)) (BitVec.ofNat 8 n) = n := by
  rw [natOf3, BitVec.toNat_ofNat, BitVec.toNat_ofNat, BitVec.toNat_ofNat]
  omega

theorem bitNat_le (b : Bool) (w : Nat) : bitNat b w ≤ w := by cases b <;> simp [bitNat]

/-! ### Coded values -/

theorem Phase.ofCode_code (p : Phase) : Phase.ofCode p.code = some p := by cases p <;> rfl
theorem Phase.code_lt (p : Phase) : p.code < 6 := by cases p <;> decide

theorem DpState.ofCode_code {st : DpState} (h : st ≠ .lost) : DpState.ofCode st.code = some st := by
  cases st with
  | lost => exact absurd rfl h
  | working | calibrating | faulted => rfl
theorem DpState.code_lt (st : DpState) : st.code < 4 := by cases st <;> decide

theorem SectState.ofCode_code (st : SectState) : SectState.ofCode st.code = some st := by cases st <;> rfl
theorem SectState.code_lt (st : SectState) : st.code < 16 := by cases st <;> decide

theorem BarrierState.ofCode_code (b : BarrierState) : BarrierState.ofCode b.code = some b := by cases b <;> rfl
theorem BarrierState.code_lt (b : BarrierState) : b.code < 256 := by cases b <;> decide

theorem AspectState.ofCode_code (a : AspectState) : AspectState.ofCode a.code = some a := by cases a <;> rfl
theorem AspectState.code_lt (a : AspectState) : a.code < 4 := by cases a <;> decide

theorem Health.ofCode_code (h : Health) : Health.ofCode h.code = some h := by cases h <;> rfl
theorem Health.code_lt (h : Health) : h.code < 4 := by cases h <;> decide

theorem JoinState.ofCode_code {j : JoinState} (h : j ≠ .loading) : JoinState.ofCode j.code = some j := by
  cases j with
  | loading => exact absurd rfl h
  | calibrating | hailing | joined | lockedOut => rfl
theorem JoinState.code_lt (j : JoinState) : j.code < 256 := by cases j <;> decide

theorem CondKind.ofNum_num (k : CondKind) : CondKind.ofNum k.num = some k := by cases k <;> rfl
theorem CondKind.num_lt (k : CondKind) : k.num < 256 := by cases k <;> decide

/-- A role set that names a role reads back from its byte (R84). -/
theorem Roles.ofByte_code {r : Roles} (h : r ≠ Roles.empty) : Roles.ofByte (BitVec.ofNat 8 r.code) = some r := by
  obtain ⟨d, p, q⟩ := r
  revert h
  cases d <;> cases p <;> cases q <;> decide

theorem CondId.ofBytes_bytes (c : CondId) : CondId.ofBytes (BitVec.ofNat 8 c.kind.num) c.subjectByte = some c := by
  have hsubject := c.subject.isLt
  have hitem := c.item.isLt
  have hlt : c.subject.val + 16 * c.item.val < 256 := by omega
  rw [CondId.ofBytes, toNat_byte (CondKind.num_lt c.kind), CondKind.ofNum_num, CondId.subjectByte, bitsOf_byte hlt, bitsOf_byte hlt]
  have hs : Fin.ofNat 16 ((c.subject.val + 16 * c.item.val) / 2 ^ 0 % 2 ^ 4) = c.subject := Fin.ext (by simp only [Fin.ofNat]; omega)
  have hi : Fin.ofNat 8 ((c.subject.val + 16 * c.item.val) / 2 ^ 4 % 2 ^ 3) = c.item := Fin.ext (by simp only [Fin.ofNat]; omega)
  rw [hs, hi]
  rfl

/-! ### The parts of a STATUS (R84) -/

theorem DpReport.wf_iff {r : DpReport} : r.wf = true ↔ r.dp < 8 ∧ r.state ≠ .lost ∧ r.speed < 65536 := by simp [DpReport.wf, and_assoc]

/-- DP reports are read back from the front of what follows them. -/
theorem readReports_bytes {l : List DpReport} (h : ∀ r ∈ l, r.wf = true) (rest : List Byte) :
    readReports l.length (l.flatMap DpReport.bytes ++ rest) = some (l, rest) := by
  induction l with
  | nil => rfl
  | cons r l ih =>
    obtain ⟨hr, hl⟩ := List.forall_mem_cons.1 h
    obtain ⟨hdp, hlost, hspeed⟩ := DpReport.wf_iff.1 hr
    have hcode := r.state.code_lt
    have hclear := bitNat_le r.headsClear 128
    have hlt : r.dp % 8 + 16 * r.state.code + bitNat r.headsClear 128 < 256 := by omega
    have hbits : bitNat r.headsClear 128 = if r.headsClear then 128 else 0 := rfl
    have hid : bitsOf (BitVec.ofNat 8 (r.dp % 8 + 16 * r.state.code + bitNat r.headsClear 128)) 0 3 = r.dp := by
      rw [bitsOf_byte hlt, hbits]
      split <;> omega
    have hstate : bitsOf (BitVec.ofNat 8 (r.dp % 8 + 16 * r.state.code + bitNat r.headsClear 128)) 4 2 = r.state.code := by
      rw [bitsOf_byte hlt, hbits]
      split <;> omega
    have hheads : bitOf (BitVec.ofNat 8 (r.dp % 8 + 16 * r.state.code + bitNat r.headsClear 128)) 7 = r.headsClear := by
      rw [bitOf_byte hlt, hbits]
      cases r.headsClear <;> simp <;> omega
    simp only [List.flatMap_cons, DpReport.bytes, halfBytes, nat2, List.cons_append, List.nil_append, List.length_cons,
      readReports, ih hl, hid, hstate, hheads, DpState.ofCode_code hlost, halfOf_halfBytes, natOf2_nat2 hspeed]

/-- The post report is read back where it is present, and nothing is read where it is absent. -/
theorem readPost_bytes {p : Option PostReport} (h : ∀ x, p = some x → x.flash ≤ 1199) (rest : List Byte) :
    readPost p.isSome ((p.map PostReport.bytes).getD [] ++ rest) = some (p, rest) := by
  cases p with
  | none => rfl
  | some x =>
    have hflash : x.flash ≤ 1199 := h x rfl
    have ha := x.amber.code_lt
    have hb := x.red1.code_lt
    have hc := x.red2.code_lt
    have hlt : x.amber.code + 4 * x.red1.code + 16 * x.red2.code < 256 := by omega
    have hamber : bitsOf (BitVec.ofNat 8 (x.amber.code + 4 * x.red1.code + 16 * x.red2.code)) 0 2 = x.amber.code := by
      rw [bitsOf_byte hlt]
      omega
    have hred1 : bitsOf (BitVec.ofNat 8 (x.amber.code + 4 * x.red1.code + 16 * x.red2.code)) 2 2 = x.red1.code := by
      rw [bitsOf_byte hlt]
      omega
    have hred2 : bitsOf (BitVec.ofNat 8 (x.amber.code + 4 * x.red1.code + 16 * x.red2.code)) 4 2 = x.red2.code := by
      rw [bitsOf_byte hlt]
      omega
    simp only [Option.isSome_some, Option.map_some, Option.getD_some, PostReport.bytes, nat2, List.cons_append, List.nil_append, readPost,
      toNat_byte x.barrier.code_lt, BarrierState.ofCode_code, hamber, hred1, hred2, AspectState.ofCode_code,
      natOf2_nat2 (show x.flash < 65536 by omega), if_neg (Nat.not_lt.2 hflash)]

/-- Two section states share a byte. -/
theorem bitsOf_pair (x y : SectState) : bitsOf (BitVec.ofNat 8 (x.code + 16 * y.code)) 0 4 = x.code
    ∧ bitsOf (BitVec.ofNat 8 (x.code + 16 * y.code)) 4 4 = y.code := by
  have hx := x.code_lt
  have hy := y.code_lt
  have hlt : x.code + 16 * y.code < 256 := by omega
  rw [bitsOf_byte hlt, bitsOf_byte hlt]
  omega

theorem bitsOf_single (x : SectState) : bitsOf (BitVec.ofNat 8 x.code) 0 4 = x.code := by
  have hx := x.code_lt
  rw [bitsOf_byte (by omega)]
  omega

/-- The section summary is read back, of three sections or of six. -/
theorem readSummary_bytes {l : List SectState} (h : l.length = 3 ∨ l.length = 6) (rest : List Byte) :
    readSummary (l.length == 6) (summaryBytes l ++ rest) = some (l, rest) := by
  rcases h with h | h
  · obtain ⟨a, b, c, rfl⟩ := List.length_eq_three.1 h
    simp [summaryBytes, readSummary, bitsOf_pair, bitsOf_single, SectState.ofCode_code]
  · match l, h with
    | [a, b, c, d, e, f], _ => simp [summaryBytes, readSummary, bitsOf_pair, SectState.ofCode_code]

/-- The condition list is read back, with nothing after it. -/
theorem readConds_bytes (l : List CondId) : readConds l.length (l.flatMap CondId.bytes) = some l := by
  induction l with
  | nil => rfl
  | cons c l ih =>
    simp only [List.flatMap_cons, CondId.bytes, List.cons_append, List.nil_append, List.length_cons, readConds, CondId.ofBytes_bytes, ih]

/-! ### The bodies (R83 to R85) -/

theorem StrikeBody.read_bytes {b : StrikeBody} (h : (Body.strike b).wf = true) : StrikeBody.read b.bytes = some b := by
  simp only [Body.wf, Bool.and_eq_true, decide_eq_true_eq] at h
  obtain ⟨⟨hdp, hspeed⟩, hdelay⟩ := h
  have hid : (BitVec.ofNat 8 b.dp).toNat = b.dp := toNat_byte (by omega)
  have hv : natOf2 (BitVec.ofNat 8 (b.speed / 256)) (BitVec.ofNat 8 b.speed) = b.speed := natOf2_nat2 (by omega)
  simp only [StrikeBody.bytes, halfBytes, nat2, nat3, List.cons_append, List.nil_append, StrikeBody.read, hid, hv, halfOf_halfBytes]
  cases hd : b.delay with
  | none =>
    have hn : natOf3 (BitVec.ofNat 8 (16777215 / 65536)) (BitVec.ofNat 8 (16777215 / 256)) (BitVec.ofNat 8 16777215) = 16777215 := natOf3_nat3 (by omega)
    simp only [Option.getD_none, hn]
    rw [if_neg (by omega), if_pos trivial, ← hd]
  | some n =>
    have hle : n ≤ 120000 := by simpa [hd] using hdelay
    simp only [Option.getD_some, natOf3_nat3 (show n < 16777216 by omega)]
    rw [if_neg (by omega), if_neg (by omega), ← hd]

theorem JoinBody.read_bytes {b : JoinBody} (h : (Body.join b).wf = true) : JoinBody.read b.bytes = some b := by
  simp only [Body.wf, Bool.and_eq_true, bne_iff_ne] at h
  obtain ⟨⟨hroles, hjoin⟩, hto⟩ := h
  cases ht : b.answerTo with
  | none =>
    simp only [JoinBody.bytes, ht, halfBytes, List.cons_append, List.nil_append, JoinBody.read, Roles.ofByte_code hroles, toNat_byte b.join.code_lt,
      JoinState.ofCode_code hjoin, if_true, halfOf_halfBytes]
    rw [← ht]
  | some n =>
    have hn : n ≤ 15 := by simpa [ht] using hto
    simp only [JoinBody.bytes, ht, halfBytes, List.cons_append, List.nil_append, JoinBody.read, Roles.ofByte_code hroles, toNat_byte b.join.code_lt,
      JoinState.ofCode_code hjoin, halfOf_halfBytes, toNat_byte (show n < 256 by omega)]
    rw [if_pos ⟨trivial, hn⟩, ← ht]

theorem OrderBody.read_bytes {b : OrderBody} (h : (Body.service b).wf = true) : OrderBody.read b.bytes = some b := by
  obtain ⟨sec, kind, key⟩ := b
  have hsec : sec ≤ 5 := by simpa [Body.wf] using h
  simp only [OrderBody.bytes, OrderBody.read, toNat_byte (show sec < 256 by omega)]
  cases kind <;> cases key <;> simp [resetKindCode, bitNat, hsec]

/-- The shape byte gives back the numbers of reports and conditions, and which parts are present (R84). -/
theorem StatusBody.shape_fields {b : StatusBody} (hd : b.dps.length ≤ 2) (hc : b.conds.length ≤ 8) :
    bitsOf (BitVec.ofNat 8 b.shape) 0 2 = b.dps.length ∧ bitOf (BitVec.ofNat 8 b.shape) 2 = b.post.isSome
      ∧ bitOf (BitVec.ofNat 8 b.shape) 3 = (b.sections.length == 6) ∧ bitsOf (BitVec.ofNat 8 b.shape) 4 4 = b.conds.length := by
  have hshape : b.shape = b.dps.length + (if b.post.isSome then 4 else 0) + (if b.sections.length == 6 then 8 else 0) + 16 * b.conds.length := rfl
  have hlt : b.shape < 256 := by
    rw [hshape]
    split <;> split <;> omega
  rw [bitsOf_byte hlt, bitsOf_byte hlt, bitOf_byte hlt, bitOf_byte hlt, hshape]
  cases b.post.isSome <;> cases b.sections.length == 6 <;> simp <;> omega

theorem StatusBody.read_bytes {b : StatusBody} (h : (Body.status b).wf = true) : StatusBody.read b.bytes = some b := by
  simp only [Body.wf, Bool.and_eq_true, Bool.or_eq_true, bne_iff_ne, decide_eq_true_eq, beq_iff_eq, List.all_eq_true] at h
  obtain ⟨⟨⟨⟨⟨⟨hroles, hdps⟩, hreports⟩, hpost⟩, hsections⟩, hconds⟩, hcount⟩ := h
  obtain ⟨hnum, hhas, hsix, hlist⟩ := StatusBody.shape_fields hdps hconds
  have ha := b.healthA.code_lt
  have hb := b.healthB.code_lt
  have hhealth : b.healthA.code + 4 * b.healthB.code < 256 := by omega
  have hA : bitsOf (BitVec.ofNat 8 (b.healthA.code + 4 * b.healthB.code)) 0 2 = b.healthA.code := by
    rw [bitsOf_byte hhealth]
    omega
  have hB : bitsOf (BitVec.ofNat 8 (b.healthA.code + 4 * b.healthB.code)) 2 2 = b.healthB.code := by
    rw [bitsOf_byte hhealth]
    omega
  have hphase := b.phase.code_lt
  have hcc : (BitVec.ofNat 8 b.condCount).toNat = b.condCount := toNat_byte (by omega)
  have hflash : ∀ x, b.post = some x → x.flash ≤ 1199 := fun x hx => by simpa [hx] using hpost
  simp only [StatusBody.bytes, halfBytes, List.cons_append, List.nil_append, List.append_assoc, StatusBody.read, hnum, hhas, hsix, hlist, hcc,
    Roles.ofByte_code hroles, toNat_byte (show b.phase.code < 256 by omega), Phase.ofCode_code, hA, hB, Health.ofCode_code,
    readReports_bytes hreports, readPost_bytes hflash, readSummary_bytes hsections, readConds_bytes, halfOf_halfBytes]
  rw [if_neg (by omega)]

/-- A body in range reads back under its kind. -/
theorem Body.read_bytes {b : Body} (h : b.wf = true) : Body.read (BitVec.ofNat 8 b.kind.code) b.bytes = some b := by
  cases b with
  | strike b => exact congrArg (Option.map Body.strike) (StrikeBody.read_bytes h)
  | status b => exact congrArg (Option.map Body.status) (StatusBody.read_bytes h)
  | join b => exact congrArg (Option.map Body.join) (JoinBody.read_bytes h)
  | service b => exact congrArg (Option.map Body.service) (OrderBody.read_bytes h)

/-! ### The envelope and the CRC (R74, R82, R198) -/

/-- A body in range is short enough for its frame to be framed (R74): a STATUS, the longest, has 45 bytes at most. -/
theorem Body.length_bytes_le {b : Body} (h : b.wf = true) : b.bytes.length ≤ 45 := by
  cases b with
  | strike b => simp [Body.bytes, StrikeBody.bytes, halfBytes, nat2, nat3]
  | join b =>
    unfold Body.bytes JoinBody.bytes
    dsimp only
    split <;> simp [halfBytes]
  | service b => simp [Body.bytes, OrderBody.bytes]
  | status b =>
    simp only [Body.wf, Bool.and_eq_true, Bool.or_eq_true, bne_iff_ne, decide_eq_true_eq, beq_iff_eq, List.all_eq_true] at h
    obtain ⟨⟨⟨⟨⟨⟨-, hdps⟩, -⟩, -⟩, hsections⟩, hconds⟩, -⟩ := h
    have hreports (l : List DpReport) : (l.flatMap DpReport.bytes).length = 7 * l.length := by
      induction l with
      | nil => rfl
      | cons r l ih => simp [DpReport.bytes, halfBytes, nat2, ih]; omega
    have hentries (l : List CondId) : (l.flatMap CondId.bytes).length = 2 * l.length := by
      induction l with
      | nil => rfl
      | cons r l ih => simp [CondId.bytes, ih]; omega
    have hpost : ((b.post.map PostReport.bytes).getD []).length ≤ 4 := by cases b.post <;> simp [PostReport.bytes, nat2]
    have hsummary : (summaryBytes b.sections).length ≤ 3 := by
      rcases hsections with hl | hl
      · obtain ⟨x, y, z, he⟩ := List.length_eq_three.1 hl
        simp [he, summaryBytes]
      · match b.sections, hl with
        | [_, _, _, _, _, _], _ => simp [summaryBytes]
    simp only [Body.bytes, StatusBody.bytes, halfBytes, List.length_append, List.length_cons, List.length_nil, hreports, hentries]
    omega

theorem length_halfBytes (w : Half) : (halfBytes w).length = 2 := rfl

/-- Bytes followed by their CRC check (R198). -/
theorem crcChecks_withCrc {l : List Byte} (h : 1 ≤ l.length) : crcChecks (withCrc l) = true := by
  have hlen : (withCrc l).length = l.length + 2 := by rw [withCrc, List.length_append, length_halfBytes]
  have hcut : l.length + 2 - 2 = l.length := rfl
  rw [crcChecks, hlen, hcut, withCrc, List.drop_left, List.take_left]
  simp only [beq_self_eq_true, Bool.and_true, decide_eq_true_eq]
  omega

/-- The envelope of a frame before its CRC (R82). -/
theorem Frame.bytes_eq (f : Frame) : f.bytes = BitVec.ofNat 8 (f.body.bytes.length + 8) :: f.crossing.extractLsb' 8 8 :: f.crossing.extractLsb' 0 8
    :: BitVec.ofNat 8 f.source :: BitVec.ofNat 8 f.body.kind.code :: f.seq :: (f.body.bytes ++ halfBytes (crc16 (BitVec.ofNat 8 (f.body.bytes.length + 8)
    :: f.crossing.extractLsb' 8 8 :: f.crossing.extractLsb' 0 8 :: BitVec.ofNat 8 f.source :: BitVec.ofNat 8 f.body.kind.code :: f.seq
    :: f.body.bytes))) := rfl

theorem Frame.length_bytes (f : Frame) : f.bytes.length = f.body.bytes.length + 8 := by
  rw [Frame.bytes_eq]
  simp [length_halfBytes]

theorem Frame.wf_iff {f : Frame} : f.wf = true ↔ f.source ≤ 15 ∧ f.body.wf = true := by simp [Frame.wf]

theorem readFields_bytes {f : Frame} (h : f.wf = true) : readFields f.bytes = some f := by
  obtain ⟨hsource, hbody⟩ := Frame.wf_iff.1 h
  rw [Frame.bytes_eq]
  simp only [readFields, List.length_append, length_halfBytes, Nat.add_sub_cancel, List.take_left, Body.read_bytes hbody,
    toNat_byte (show f.source < 256 by omega), if_pos hsource, halfOf_halfBytes]

theorem judgeFrame_bytes {f : Frame} (h : f.wf = true) : judgeFrame f.crossing f.bytes = .valid := by
  obtain ⟨-, hbody⟩ := Frame.wf_iff.1 h
  have hlen := f.length_bytes
  have hshort := Body.length_bytes_le hbody
  have hframed : framed f.bytes = true := by
    rw [framed, hlen]
    simp only [Frame.bytes_eq, List.head?_cons, beq_self_eq_true, Bool.and_true, decide_eq_true_eq]
    omega
  have hcrc : crcChecks f.bytes = true := crcChecks_withCrc (by simp)
  have hcrossing : crossingOf f.bytes = f.crossing := halfOf_halfBytes f.crossing
  rw [judgeFrame, if_neg (by simp [hframed]), if_neg (by simp [hcrc]), hcrossing, if_neg (by simp [hlen])]

/-- Settles O60: each coded field reads back, so each body does, and the envelope with its CRC is judged valid. -/
theorem framesReadBack : Obligations.FramesReadBack := by
  unfold Obligations.FramesReadBack
  exact fun f h => ⟨readFrame_eq_some.2 ⟨readFields_bytes h, rfl⟩, judgeFrame_bytes h⟩

end Sys2Proof.Machine
end

section
/-! ## The entry of a peer through an event (R97, R98, R101) -/

namespace Sys2Proof.Machine

section

variable {n : Nat} {f : Peer → Peer} {s t : State} {p : Peer}

theorem peerAt_congr (h : t.peers = s.peers) (n : Nat) : peerAt t n = peerAt s n := by
  simp only [peerAt, h]

theorem peerAt_station (hat : peerAt s n = some p) : p.station = n := by
  simpa using List.find?_some hat

/-- A changed entry is read back at its station. -/
theorem peerAt_mapPeer (hf : ∀ q, (f q).station = q.station) (hat : peerAt s n = some p) : peerAt (mapPeer n f s) n = some (f p) := by
  have hq : (fun q : Peer => q.station == n) ∘ (fun q => if q.station = n then f q else q) = fun q => q.station == n :=
    funext fun q => by
      show ((if q.station = n then f q else q).station == n) = (q.station == n)
      split
      · rw [hf q]
      · rfl
  rw [peerAt, mapPeer_peers, List.find?_map, hq, show s.peers.find? (fun q => q.station == n) = some p from hat, Option.map_some,
    if_pos (peerAt_station hat)]

/-- The phase unit sees nothing of a change of the peers that leaves what it watches (R106). -/
theorem phaseInputsChanged_mapPeer (hf : ∀ q, (f q).watched = q.watched) (hs : t.sections = s.sections) (hp : t.peers = (mapPeer n f s).peers) :
    phaseInputsChanged s t = false := by
  have hw : t.peers.map Peer.watched = s.peers.map Peer.watched := by
    rw [hp, mapPeer_peers, List.map_map]
    refine List.map_congr_left fun q _ => ?_
    show (if q.station = n then f q else q).watched = q.watched
    split
    · exact hf q
    · rfl
  simp [phaseInputsChanged, hs, hw]

/-- A command whose guard does not hold has no effect of its own. -/
theorem guarded_unmet {c : State → Bool} {g : State → Work} (h : c s = false) : guarded c g s = (s, []) := by
  rw [guarded, if_neg (ne_true_of_eq_false h)]

/-- An event leaves the entries of the peers as its work has left them. -/
theorem event_peers {dt : Nat} {g : State → Work} (hp : s.powered = true) : (event dt s g).peers = (g (advance dt s)).1.peers :=
  event_kept_work hp .peers (by decide)

end

/-- The tolerance of a peer's mismatch has passed (R101). -/
def passTolerance (p : Peer) : Peer := { p with tolerancePassed := true }

/-- AGREEMENT_TOLERANCE_REACHED at a peer whose tolerance has run (R101). -/
theorem exec_agreementToleranceReached {dt n : Nat} {s : State} {p : Peer} (hp : s.powered = true) (hat : peerAt (advance dt s) n = some p)
    (ht : toleranceReached (advance dt s) p = true) : ∃ t, exec (.agreementToleranceReached dt n) s = .next t
      ∧ Concluded (raiseCond (condOf .peerDisagrees n 0) (mapPeer n passTolerance (advance dt s))) t := by
  refine ⟨_, rfl, event_unwatched hp ?_ (phaseInputsChanged_mapPeer (n := n) (f := passTolerance) ?_ ?_ ?_) ?_⟩
  · rw [guarded_apply (by rw [hat, Option.any_some, ht])]
    rfl
  · exact fun q => rfl
  · rw [raiseCond_sections, mapPeer_sections]
  · rw [raiseCond_peers]
  · exact raiseCond_kept _ _ .firstFault (by decide)

/-- Settles O52: the one raise, by the guard of the command. -/
theorem standingMismatchRaisesPeerDisagrees : Obligations.StandingMismatchRaisesPeerDisagrees := by
  intro dt n s p c hp hat hc hlen
  have hguard : toleranceReached (advance dt s) p = (!p.tolerancePassed && reached (advance dt s).clock.ms (later c s.cfg.timing.tolerance)) := by
    rw [toleranceReached, hc, Option.any_some, advance_cfg]
  refine ⟨fun hpass hreach => ?_, fun hnot => ⟨_, rfl, event_concluded hp ?_ rfl rfl rfl⟩⟩
  · obtain ⟨t, hex, hcon⟩ := exec_agreementToleranceReached (n := n) hp hat (by rw [hguard, hpass, hreach]; rfl)
    refine ⟨t, hex, ?_, ?_, ?_⟩
    · rw [peerAt_congr (hcon.kept .peers (by decide)), peerAt_congr (raiseCond_peers _ _)]
      exact peerAt_mapPeer (fun _ => rfl) hat
    · rw [hasCond_congr (hcon.kept .conds (by decide)).1]
      exact hasCond_raiseCond hlen
    · exact (((mapPeer_kept n passTolerance _).mono (by decide)).trans ((raiseCond_kept _ _).mono (by decide))).trans (hcon.kept.mono (by decide))
  · refine guarded_unmet ?_
    rw [hat, Option.any_some, hguard]
    rcases hnot with h | h <;> rw [h] <;> simp

end Sys2Proof.Machine
end

section
/-! ## What every evaluation keeps (R105, R106, R137) -/

namespace Sys2Proof.Machine

/-! ### What the phase unit looks at -/

/-- A state that looks to the phase unit as another does: the same records, entries and times, and the same phase unit but for the marks that it keeps
for the sequencer. -/
structure SameView (s t : State) : Prop where
  sections : t.sections = s.sections
  peers : t.peers = s.peers
  join : t.join = s.join
  cfg : t.cfg = s.cfg
  clock : t.clock = s.clock
  phase : ∃ l b, t.phase = { s.phase with deferred := l, haltPending := b }

/-- The parts that the phase unit looks at. -/
def viewParts : List Part := [.sections, .peers, .join, .cfg, .clock, .phase]

namespace SameView

variable {s t u : State}

theorem of_kept {l : List Part} (hk : KeptBut l s t) (hl : ∀ p ∈ viewParts, p ∉ l) : SameView s t where
  sections := hk .sections (hl _ (by decide))
  peers := hk .peers (hl _ (by decide))
  join := hk .join (hl _ (by decide))
  cfg := hk .cfg (hl _ (by decide))
  clock := hk .clock (hl _ (by decide))
  phase := ⟨s.phase.deferred, s.phase.haltPending, hk .phase (hl _ (by decide))⟩

theorem of_marks (s : State) (l : Option ListName) (b : Bool) : SameView s { s with phase := { s.phase with deferred := l, haltPending := b } } :=
  ⟨rfl, rfl, rfl, rfl, rfl, l, b, rfl⟩

theorem defer (l : Option ListName) (s : State) : SameView s (defer l s) := of_marks s l s.phase.haltPending

theorem trans (h : SameView s t) (h' : SameView t u) : SameView s u where
  sections := h'.sections.trans h.sections
  peers := h'.peers.trans h.peers
  join := h'.join.trans h.join
  cfg := h'.cfg.trans h.cfg
  clock := h'.clock.trans h.clock
  phase := by
    obtain ⟨l, b, hp⟩ := h.phase
    obtain ⟨l', b', hp'⟩ := h'.phase
    exact ⟨l', b', by rw [hp', hp]⟩

theorem phase_eq (h : SameView s t) : t.phase.phase = s.phase.phase := by
  obtain ⟨l, b, hp⟩ := h.phase
  rw [hp]

theorem releaseExpired (h : SameView s t) : t.phase.releaseExpired = s.phase.releaseExpired := by
  obtain ⟨l, b, hp⟩ := h.phase
  rw [hp]

theorem failureDemand (h : SameView s t) : failureDemand t = failureDemand s := by
  simp only [Machine.failureDemand, failureCauses, h.sections, h.peers, h.join]

theorem islandsClear (h : SameView s t) : islandsClear t = islandsClear s := by
  simp only [Machine.islandsClear, h.sections]

theorem seqStart (l : ListName) (s : State) : SameView s (seqStart l s).1 := of_kept (seqStart_kept l s) (by decide)

theorem seqRequests (s : State) : SameView s (seqRequests s).1 := by
  have hk := seqRequests_kept s
  obtain ⟨l, hl⟩ := seqRequests_phaseUnit s
  exact ⟨hk .sections (by decide), hk .peers (by decide), hk .join (by decide), hk .cfg (by decide), hk .clock (by decide),
    l, s.phase.haltPending, hl⟩

/-- What follows a move touches nothing that the phase unit looks at but the deferred list (R106, R137). -/
theorem movePhase (p : Phase) (s : State) : SameView (entered p s) (movePhase p s).1 := by
  have filled : SameView (entered p s) (if p = .failed then firstFaultTrigger s.phase.phase (entered p s) else entered p s) :=
    of_kept (l := [.firstFault]) (KeptBut.ite (fun _ => firstFaultTrigger_kept _ _) fun _ => KeptBut.refl _ _) (by decide)
  exact ((filled.trans (of_kept (barrierSettle_kept _) (by decide))).trans (seqRequests _)).trans (of_kept (judgeDcis_kept _) (by decide))

end SameView

theorem movePhase_phase (p : Phase) (s : State) : (movePhase p s).1.phase.phase = p := (SameView.movePhase p s).phase_eq

theorem releaseUpkeep_phase (s : State) : (releaseUpkeep s).phase.phase = s.phase.phase := by
  obtain ⟨r, e, l, h, -⟩ := releaseUpkeep_phaseUnit s
  rw [h]

/-- The standing-test times are the one thing that noting them changes (R120). -/
theorem noteStanding_phaseUnit (s : State) : ∃ l, (noteStanding s).phase = { s.phase with standing := l } := by
  unfold noteStanding
  split
  · refine List.foldlRecOn (motive := fun t : State => ∃ l, t.phase = { s.phase with standing := l }) _ _ ⟨_, rfl⟩ fun t ht r _ => ?_
    obtain ⟨l, hl⟩ := ht
    split
    · exact ⟨l, hl⟩
    next x _ =>
      split
      · exact ⟨l, hl⟩
      · exact ⟨(t.phase.putStanding r.id x).standing, by simp only [PhaseUnit.putStanding, hl]⟩
  · exact ⟨_, rfl⟩

/-- The standing-test times are no part of the release test (R120). -/
theorem releaseHolds_noteStanding (s : State) : releaseHolds (noteStanding s) = releaseHolds s := by
  obtain ⟨l, hl⟩ := noteStanding_phaseUnit s
  have hk := noteStanding_kept s
  have hs : (noteStanding s).sections = s.sections := hk .sections (by decide)
  have hc : (noteStanding s).cfg = s.cfg := hk .cfg (by decide)
  have hclock : (noteStanding s).clock = s.clock := hk .clock (by decide)
  simp only [releaseHolds, releaseTested, demanding, islandsClear, hl, hs, hc, hclock]

/-! ### The handling of signals -/

/-- A predicate over what the phase unit looks at that an evaluation keeps, step by step: the upkeep of the release timer, the standing-test times, a
release, a move of the transition table, and the entry into JOINED. -/
structure PhaseStable (I : State → Prop) : Prop where
  same : ∀ {s t : State}, SameView s t → I s → I t
  upkeep : ∀ {s : State}, I s → I (releaseUpkeep s)
  notes : ∀ {s : State}, I s → I (noteStanding s)
  releases : ∀ {s : State}, releaseHolds s = true → I s → I (makeRelease s)
  moves : ∀ {s : State} {p : Phase}, phaseAct s = .move p → I s → I (entered p s)
  starts : ∀ {s : State}, s.phase.phase = .starting → I s → I (entered .failed s)

namespace PhaseStable

variable {I : State → Prop} (h : PhaseStable I) {s : State}
include h

theorem halt (hs : I s) : I { seqHalt s with phase := { s.phase with haltPending := true } } := by
  have hk : SameView s (seqHalt s) := SameView.of_kept (seqHalt_kept s) (by decide)
  refine h.same (hk.trans ?_) hs
  rw [← seqHalt_phase s]
  exact SameView.of_marks (seqHalt s) (seqHalt s).phase.deferred true

theorem evaluate {fuel : Nat} (hs : I s) : I (evaluate fuel s).1 := by
  induction fuel generalizing s with
  | zero => exact hs
  | succ n ih =>
    have h1 := h.upkeep hs
    unfold Machine.evaluate
    dsimp only
    split
    next hrel => exact ih (h.releases hrel h1)
    next =>
      have h2 := h.notes h1
      split
      · exact h2
      · exact h.halt h2
      next p hact => exact ih (h.same (SameView.movePhase p _) (h.moves hact h2))

theorem haltedEnd (hs : I s) : I (haltedEnd s).1 := by
  have h1 := h.evaluate (fuel := moveFuel) (h.same (SameView.of_marks s s.phase.deferred false) hs)
  simp only [Machine.haltedEnd, Work.andThen]
  split
  · exact h.same (SameView.seqStart _ _) h1
  · exact h1

theorem otherEnd (hs : I s) : I (otherEnd s).1 := by
  have h1 := h.evaluate (fuel := moveFuel) hs
  simp only [Machine.otherEnd, Work.andThen]
  repeat' split
  · exact h1
  · exact h.same ((SameView.defer none _).trans (SameView.seqStart _ _)) h1
  · exact h1

theorem handleSig {sig : Sig} (hs : I s) : I (handleSig sig s).1 := by
  cases sig with
  | evaluate => exact h.evaluate hs
  | judge => exact h.same (SameView.of_kept (judgeStep_kept walkFuel s) (by decide)) hs
  | enteredJoined =>
    show I (if s.phase.phase = .starting then (movePhase .failed s).andThen (Machine.evaluate moveFuel) else (s, [])).1
    split
    next hp => exact h.evaluate (h.same (SameView.movePhase _ _) (h.starts hp hs))
    next => exact hs
  | seqEnded how =>
    have he : I (if s.phase.haltPending then Machine.haltedEnd s else Machine.otherEnd s).1 := by
      split
      · exact h.haltedEnd hs
      · exact h.otherEnd hs
    cases how
    · exact h.otherEnd hs
    · exact he
    · exact h.otherEnd hs
    · exact he

theorem drain {fuel : Nat} {sigs : List Sig} (hs : I s) : I (drain fuel sigs s) := by
  induction fuel generalizing sigs s with
  | zero => exact hs
  | succ n ih =>
    cases sigs with
    | nil => exact hs
    | cons sig rest => exact ih (h.handleSig hs)

/-- What the outcome of an evaluation step has, whatever was before, holds after the evaluation that begins the handling of the signals. -/
theorem settles (hrel : ∀ s, releaseHolds s = true → I (makeRelease s))
    (hstay : ∀ s, releaseHolds s = false → (∀ p, phaseAct s ≠ .move p) → I s)
    (hmove : ∀ s p, phaseAct s = .move p → I (entered p s)) (n : Nat) (sigs : List Sig) (s : State) : I (Machine.drain (n + 1) (.evaluate :: sigs) s) := by
  rw [drain_cons]
  refine h.drain ?_
  show I (Machine.evaluate (15 + 1) s).1
  unfold Machine.evaluate
  dsimp only
  split
  next hr => exact h.evaluate (hrel _ hr)
  next hr =>
    have hr2 := (releaseHolds_noteStanding _).trans (eq_false_of_ne_true hr)
    split
    next ha => exact hstay _ hr2 fun p => by rw [ha]; exact nofun
    next ha => exact h.halt (hstay _ hr2 fun p => by rw [ha]; exact nofun)
    next p ha => exact h.evaluate (h.same (SameView.movePhase p _) (hmove _ p ha))

end PhaseStable

end Sys2Proof.Machine
end

section
/-! ## Open only over clear islands, without failure demand, with no list but OPEN's (R105, R137) -/

namespace Sys2Proof.Machine

/-- The phase is OPEN or OPENING. -/
def OpenPhase (s : State) : Prop := s.phase.phase = .opened ∨ s.phase.phase = .opening

/-- An OPEN or OPENING crossing has clear islands and no failure demand (R105). -/
def OpenFit (s : State) : Prop := OpenPhase s → islandsClear s = true ∧ failureDemand s = false

/-! ### The transition table (R109 to R118) -/

theorem islandsClear_of_undemanded {s : State} (h : closingDemand s = false) : islandsClear s = true := by
  simp only [closingDemand, List.any_eq_false] at h
  simp only [islandsClear, List.all_eq_true]
  intro r hr
  have hd := h r hr
  cases hk : r.isApproach
  · simpa [Sect.demands, hk] using hd
  · rfl

/-- Under failure demand the only move is to FAILED (R111). -/
theorem phaseAct_failing {s : State} {p : Phase} (hf : failureDemand s = true) (h : phaseAct s = .move p) : p = .failed := by
  cases hp : s.phase.phase <;> simp only [phaseAct, hp, hf, if_true] at h <;> cases h <;> rfl

/-- Under closing demand alone the crossing closes (R112 to R114). -/
theorem phaseAct_demanded {s : State} {p : Phase} (hf : failureDemand s = false) (hc : closingDemand s = true) (h : phaseAct s = .move p) :
    p = .closed ∨ p = .closing := by
  cases hp : s.phase.phase with
  | starting | opened | opening | closed => simp [phaseAct, hp, hf, hc] at h <;> exact .inr h.symm
  | failed =>
    simp only [phaseAct, hp, hf, hc, if_true, Bool.false_eq_true, if_false] at h
    split at h <;> cases h <;> simp
  | closing =>
    rw [phaseAct_closing hf hc hp] at h
    split at h <;> cases h
    exact .inl rfl

/-- A crossing opens only without failure demand and closing demand. -/
theorem phaseAct_opens {s : State} {p : Phase} (h : phaseAct s = .move p) (ho : p = .opened ∨ p = .opening) :
    failureDemand s = false ∧ closingDemand s = false := by
  cases hf : failureDemand s
  · cases hc : closingDemand s
    · exact ⟨rfl, rfl⟩
    · rcases phaseAct_demanded hf hc h with rfl | rfl <;> simp at ho
  · rw [phaseAct_failing hf h] at ho
    simp at ho

/-- OPEN is entered from OPENING with the openings complete (R117, R122). -/
theorem phaseAct_opened {s : State} (h : phaseAct s = .move .opened) : openingsComplete s = true := by
  obtain ⟨hf, hc⟩ := phaseAct_opens h (.inl rfl)
  cases hp : s.phase.phase with
  | starting | opened | failed => simp [phaseAct, hp, hf, hc] at h
  | opening =>
    simp only [phaseAct, hp, hf, hc, Bool.false_eq_true, if_false] at h
    split at h
    · assumption
    · cases h
  | closed =>
    simp only [phaseAct, hp, hf, hc, Bool.false_eq_true, if_false] at h
    split at h <;> cases h
  | closing =>
    simp only [phaseAct, hp, hf, hc, Bool.false_eq_true, if_false, closingAtPost] at h
    repeat' split at h
    all_goals cases h

/-- A HALT is asked for in CLOSING alone (R115). -/
theorem phaseAct_halt {s : State} (h : phaseAct s = .halt) : s.phase.phase = .closing := by
  cases hp : s.phase.phase with
  | closing => rfl
  | starting | failed | opened | opening | closed =>
    simp only [phaseAct, hp] at h
    repeat' split at h
    all_goals cases h

/-- An OPEN or OPENING crossing that stays so has no demand (R113). -/
theorem phaseAct_keepsOpen {s : State} (h : ∀ p, phaseAct s ≠ .move p) (ho : OpenPhase s) : failureDemand s = false ∧ closingDemand s = false := by
  cases hf : failureDemand s
  · cases hc : closingDemand s
    · exact ⟨rfl, rfl⟩
    · exact absurd (phaseAct_open hf hc ho) (h _)
  · exact absurd (show phaseAct s = .move .failed by rcases ho with ho | ho <;> simp [phaseAct, ho, hf]) (h _)

/-! ### Through the handling of signals -/

theorem OpenFit.of_kept {l : List Part} {s t : State} (hk : KeptBut l s t) (hl : ∀ p ∈ [Part.sections, .peers, .join], p ∉ l)
    (hp : t.phase.phase = s.phase.phase) (hs : OpenFit s) : OpenFit t := by
  intro ho
  rw [OpenPhase, hp] at ho
  obtain ⟨hi, hf⟩ := hs ho
  constructor
  · rw [islandsClear, hk .sections (hl _ (by decide))]
    exact hi
  · rw [failureDemand, failureCauses, hk .sections (hl _ (by decide)), hk .peers (hl _ (by decide)), hk .join (hl _ (by decide))]
    exact hf

theorem openFit_release {s : State} (h : releaseHolds s = true) : OpenFit (makeRelease s) := by
  have hclosed : s.phase.phase = .closed := by
    simp only [releaseHolds, releaseTested, Bool.and_eq_true, beq_iff_eq] at h
    exact h.1.1.1.1
  obtain ⟨l, hl⟩ := ReleaseDue.phaseUnit s
  rw [OpenFit, OpenPhase, hl]
  simp [hclosed]

theorem openFit_move {s : State} {p : Phase} (h : phaseAct s = .move p) : OpenFit (entered p s) := fun ho =>
  have hd := phaseAct_opens h ho
  ⟨islandsClear_of_undemanded hd.2, hd.1⟩

theorem openFit_stable : PhaseStable OpenFit where
  same h hs := by
    intro ho
    rw [OpenPhase, h.phase_eq] at ho
    rw [h.islandsClear, h.failureDemand]
    exact hs ho
  upkeep hs := hs.of_kept (releaseUpkeep_kept _) (by decide) (releaseUpkeep_phase _)
  notes hs := hs.of_kept (noteStanding_kept _) (by decide) (noteStanding_phase _)
  releases h _ := openFit_release h
  moves h _ := openFit_move h
  starts _ _ := fun ho => by rcases ho with ho | ho <;> cases ho

/-- The evaluation that follows a change of the demands brings the phase back over clear islands (R105, R106). -/
theorem openFit_settled (n : Nat) (sigs : List Sig) (s : State) : OpenFit (drain (n + 1) (.evaluate :: sigs) s) := by
  refine openFit_stable.settles (fun _ => openFit_release) (fun s _ h ho => ?_) (fun s p => openFit_move) n sigs s
  obtain ⟨hf, hc⟩ := phaseAct_keepsOpen h ho
  exact ⟨islandsClear_of_undemanded hc, hf⟩

/-! ### The sequencer's link to the phase (R126, R127, R137) -/

/-- At a post that is OPEN or OPENING no list is deferred and no run but that of OPEN is in progress. -/
def Linked (s : State) : Prop := isPost s = true → OpenPhase s → s.phase.deferred = none ∧ (s.seq.active = true → s.seq.list = some .opn)

theorem Linked.of_shut {s : State} (h : ¬OpenPhase s) : Linked s := fun _ ho => absurd ho h

namespace Linked

variable {s t : State}

/-- A change that begins no run keeps the link. -/
theorem congr (hs : Linked s) (hc : t.cfg = s.cfg) (hp : t.phase.phase = s.phase.phase) (hd : t.phase.deferred = s.phase.deferred)
    (hr : t.seq.active = true → s.seq.active = true) (hl : t.seq.list = s.seq.list) : Linked t := by
  intro hpost ho
  rw [isPost_congr hc] at hpost
  rw [OpenPhase, hp] at ho
  obtain ⟨hnone, hopn⟩ := hs hpost ho
  exact ⟨hd.trans hnone, fun ha => hl.trans (hopn (hr ha))⟩

theorem of_kept {l : List Part} (hs : Linked s) (hk : KeptBut l s t) (hl : ∀ p ∈ [Part.seq, .cfg], p ∉ l) (hp : t.phase.phase = s.phase.phase)
    (hd : t.phase.deferred = s.phase.deferred) : Linked t := by
  have hq : t.seq = s.seq := hk .seq (hl _ (by decide))
  exact hs.congr (hk .cfg (hl _ (by decide))) hp hd (fun ha => by rw [← hq]; exact ha) (by rw [hq])

theorem judgeStep (n : Nat) (hs : Linked s) : Linked (judgeStep n s).1 := by
  have hk := judgeStep_kept n s
  have hp : (Machine.judgeStep n s).1.phase = s.phase := hk .phase (by decide)
  refine hs.congr (hk .cfg (by decide)) (congrArg _ hp) (congrArg _ hp) (fun ha => ?_) (judgeStep_list n s)
  cases h : s.seq.active with
  | true => rfl
  | false =>
    rw [seqRests_of_inactive h, h] at ha
    exact ha

/-- A START of OPEN, or of any list where the crossing is not open, keeps the link. -/
theorem seqStart (l : ListName) (hd : isPost s = true → OpenPhase s → s.phase.deferred = none ∧ l = .opn) (hi : s.seq.active = false) :
    Linked (seqStart l s).1 := by
  intro hpost ho
  have hp : (Machine.seqStart l s).1.phase = s.phase := seqStart_kept l s .phase (by decide)
  rw [isPost_congr (seqStart_kept l s .cfg (by decide))] at hpost
  rw [OpenPhase, hp] at ho
  obtain ⟨hnone, rfl⟩ := hd hpost ho
  rw [hp, seqStart_list .opn s hi]
  exact ⟨hnone, fun _ => rfl⟩

end Linked

/-- A run that is stopped is not in progress (R134). -/
theorem seqStop_inactive {s : State} (ha : s.seq.active = true) : (seqStop s).1.seq.active = false := by
  have hk : (seqStop s).1.seq = s.seq.ended .stopped := by
    rw [seqStop, if_pos ha]
    exact handCommand_kept .release { s with seq := s.seq.ended .stopped } .seq (by decide)
  rw [hk]
  exact SeqUnit.ended_active _ _

/-- The requests at the entry into OPENING leave no run but that of OPEN (R137). -/
theorem seqRequests_linked {s : State} (hp : s.phase.phase = .opening) : Linked (seqRequests s).1 := by
  intro hpost _
  rw [isPost_congr (seqRequests_kept s .cfg (by decide))] at hpost
  have hphase (w : State) : (seqStart .opn w).1.phase = w.phase := seqStart_kept _ _ .phase (by decide)
  have hstart (w : State) (hi : w.seq.active = false) : (seqStart .opn w).1.seq.list = some .opn := seqStart_list _ _ hi
  cases ha : s.seq.active with
  | false =>
    have he : seqRequests s = seqStart .opn (defer none s) := by simp [seqRequests, hpost, hp, wantedList, ha]
    rw [he, hphase]
    exact ⟨rfl, fun _ => hstart _ ha⟩
  | true =>
    by_cases hrun : s.seq.state = .running ∧ s.seq.list = some .opn
    · have he : seqRequests s = (defer none s, []) := by simp [seqRequests, hpost, hp, wantedList, ha, hrun]
      rw [he]
      exact ⟨rfl, fun _ => hrun.2⟩
    · have he : (seqRequests s).1 = (seqStart .opn (seqStop (defer none s)).1).1 := by
        simp [seqRequests, hpost, hp, wantedList, ha, hrun, Work.andThen]
      have hstop : (seqStop (defer none s)).1.phase = (defer none s).phase := seqStop_kept _ .phase (by decide)
      rw [he, hphase, hstop]
      exact ⟨rfl, fun _ => hstart _ (seqStop_inactive (s := defer none s) ha)⟩

/-- A move that the transition table takes leaves the link (R137). -/
theorem movePhase_linked {s : State} {p : Phase} (h : phaseAct s = .move p) : Linked (movePhase p s).1 := by
  have hk := barrierSettle_kept (entered p s)
  have hphase : (barrierSettle (entered p s)).1.phase.phase = p := congrArg PhaseUnit.phase (hk .phase (by decide))
  have judged {t : State} (ht : Linked t) : Linked (judgeDcis t) :=
    ht.of_kept (judgeDcis_kept t) (by decide) (congrArg _ (judgeDcis_kept t .phase (by decide))) (congrArg _ (judgeDcis_kept t .phase (by decide)))
  cases p with
  | opening =>
    rw [movePhase_eq (by decide)]
    exact judged (seqRequests_linked hphase)
  | opened =>
    intro hpost _
    have hps : isPost s = true := (isPost_congr (movePhase_kept .opened s .cfg (by decide))).symm.trans hpost
    have hsettled : isPost (barrierSettle (entered .opened s)).1 = true :=
      (isPost_congr ((hk .cfg (by decide)).trans (entered_kept _ _ .cfg (by decide)))).trans hps
    have he : (movePhase .opened s).1 = judgeDcis (defer none (barrierSettle (entered .opened s)).1) := by
      rw [movePhase_eq (by decide), seqRequests_unwanted (by rw [hphase]; rfl), if_pos hsettled]
    have hdone : s.seq.state = .done := by
      have hc := phaseAct_opened h
      rw [openingsComplete, if_pos hps] at hc
      simp only [Bool.and_eq_true, beq_iff_eq] at hc
      exact hc.1.1
    have hseq : (movePhase .opened s).1.seq = s.seq := by
      rw [he, judgeDcis_kept _ .seq (by decide)]
      exact hk .seq (by decide)
    constructor
    · rw [he, judgeDcis_kept _ .phase (by decide)]
      rfl
    · rw [hseq, SeqUnit.active, hdone]
      exact nofun
  | starting | failed | closing | closed =>
    refine Linked.of_shut ?_
    rw [OpenPhase, movePhase_phase]
    simp

namespace Linked

variable {s : State} (hs : Linked s)
include hs

theorem evaluate {fuel : Nat} : Linked (evaluate fuel s).1 := by
  induction fuel generalizing s with
  | zero => exact hs
  | succ n ih =>
    have h1 : Linked (releaseUpkeep s) := by
      obtain ⟨r, e, l, hp, -⟩ := releaseUpkeep_phaseUnit s
      exact hs.of_kept (releaseUpkeep_kept s) (by decide) (by rw [hp]) (by rw [hp])
    unfold Machine.evaluate
    dsimp only
    split
    · obtain ⟨l, hp⟩ := ReleaseDue.phaseUnit (releaseUpkeep s)
      exact ih (h1.of_kept (makeRelease_kept_few _) (by decide) (by rw [hp]) (by rw [hp]))
    · have h2 : Linked (noteStanding (releaseUpkeep s)) := by
        obtain ⟨l, hp⟩ := noteStanding_phaseUnit (releaseUpkeep s)
        exact h1.of_kept (noteStanding_kept _) (by decide) (by rw [hp]) (by rw [hp])
      split
      · exact h2
      next ha =>
        have hclosing := phaseAct_halt ha
        refine of_shut fun ho => ?_
        rcases ho with hp | hp <;> exact absurd (hclosing.symm.trans hp) (by decide)
      next p ha => exact ih (movePhase_linked ha)

theorem haltedEnd : Linked (haltedEnd s).1 := by
  have h1 : Linked (Machine.evaluate moveFuel { s with phase := { s.phase with haltPending := false } }).1 :=
    evaluate (s := { s with phase := { s.phase with haltPending := false } }) (hs.congr rfl rfl rfl id rfl)
  simp only [Machine.haltedEnd, Work.andThen]
  split
  next hc =>
    obtain ⟨hp, -, hi⟩ := hc
    refine seqStart .close (fun _ ho => ?_) (by simpa using hi)
    rcases ho with ho | ho <;> rw [hp] at ho <;> cases ho
  · exact h1

theorem otherEnd : Linked (otherEnd s).1 := by
  have h1 : Linked (Machine.evaluate moveFuel s).1 := hs.evaluate
  simp only [Machine.otherEnd, Work.andThen]
  split
  next l hl =>
    split
    · exact h1
    next hi =>
      refine seqStart (s := defer none _) l (fun hpost ho => ?_) (by simpa using hi)
      rw [(h1 hpost ho).1] at hl
      cases hl
  · exact h1

theorem handleSig (sig : Sig) : Linked (handleSig sig s).1 := by
  cases sig with
  | evaluate => exact hs.evaluate
  | judge => exact hs.judgeStep walkFuel
  | enteredJoined =>
    show Linked (if s.phase.phase = .starting then (movePhase .failed s).andThen (Machine.evaluate moveFuel) else (s, [])).1
    split
    · refine evaluate (s := (movePhase .failed s).1) (of_shut ?_)
      rw [OpenPhase, movePhase_phase]
      simp
    · exact hs
  | seqEnded how =>
    have he : Linked (if s.phase.haltPending then Machine.haltedEnd s else Machine.otherEnd s).1 := by
      split
      · exact hs.haltedEnd
      · exact hs.otherEnd
    cases how
    · exact hs.otherEnd
    · exact he
    · exact hs.otherEnd
    · exact he

theorem drain {fuel : Nat} {sigs : List Sig} : Linked (drain fuel sigs s) := by
  induction fuel generalizing sigs s with
  | zero => exact hs
  | succ n ih =>
    cases sigs with
    | nil => exact hs
    | cons sig rest => exact ih (hs.handleSig sig)

end Linked

end Sys2Proof.Machine
end

section
/-! ## The entry into JOINED is signalled by the join exchange alone (R105, R106) -/

namespace Sys2Proof.Machine

/-- Signals among which no entry into JOINED is. -/
def Unjoined (w : Work) : Prop := Sig.enteredJoined ∉ w.2

theorem Unjoined.andThen {w : Work} {f : State → Work} (hw : Unjoined w) (hf : Unjoined (f w.1)) : Unjoined (w.andThen f) := by
  simp only [Unjoined, Work.andThen, List.mem_append, not_or]
  exact ⟨hw, hf⟩

theorem Unjoined.nil (s : State) : Unjoined (s, []) := List.not_mem_nil

theorem barrierSettle_unjoined (s : State) : Unjoined (barrierSettle s) := by
  unfold barrierSettle
  split
  · extract_lets b st s1
    split
    · exact Unjoined.nil _
    · simp [Unjoined]
  · exact Unjoined.nil _

theorem handCommand_unjoined (c : BarrierCmd) (s : State) : Unjoined (handCommand c s) := (barrierSettle_unjoined _).andThen (Unjoined.nil _)

theorem handField_unjoined (f : BarrierField) (s : State) : Unjoined (handField f s) := by
  cases f
  · exact Unjoined.nil s
  · exact handCommand_unjoined _ _
  · exact handCommand_unjoined _ _
  · exact handCommand_unjoined _ _

theorem beginStep_unjoined (i : Nat) (st : StepRec) (s : State) : Unjoined (beginStep i st s) := by
  refine (handField_unjoined _ _).andThen ?_
  split
  · simp [Unjoined]
  · exact Unjoined.nil _

theorem endRun_unjoined (how : EndHow) (s : State) : Unjoined (endRun how s) := by simp [Unjoined, endRun]

theorem judgeStep_unjoined (n : Nat) (s : State) : Unjoined (judgeStep n s) := by
  induction n generalizing s with
  | zero => exact Unjoined.nil s
  | succ n ih =>
    unfold judgeStep
    repeat' split
    all_goals first
      | exact Unjoined.nil _
      | exact endRun_unjoined _ _
      | exact (beginStep_unjoined _ _ _).andThen (ih _)

theorem seqStart_unjoined (l : ListName) (s : State) : Unjoined (seqStart l s) := by
  unfold seqStart
  split
  · exact Unjoined.nil s
  · dsimp only
    split
    · exact Unjoined.nil _
    · exact (beginStep_unjoined _ _ _).andThen (judgeStep_unjoined _ _)

/-! ### Before JOINED the phase stays STARTING (R105) -/

/-- A signal that is not the entry into JOINED leaves the phase STARTING and gives no entry into JOINED. -/
theorem handleSig_starting {sig : Sig} {s : State} (hp : s.phase.phase = .starting) (hsig : sig ≠ .enteredJoined) :
    (handleSig sig s).1.phase.phase = .starting ∧ Unjoined (handleSig sig s) := by
  have halted : (haltedEnd s).1.phase.phase = .starting ∧ Unjoined (haltedEnd s) := by
    rw [haltedEnd, evaluate_starting (s := { s with phase := { s.phase with haltPending := false } }) hp]
    simp only [Work.andThen, List.nil_append]
    split
    next hc => exact absurd (hc.1.symm.trans hp) (by decide)
    · exact ⟨hp, Unjoined.nil _⟩
  have other : (otherEnd s).1.phase.phase = .starting ∧ Unjoined (otherEnd s) := by
    rw [otherEnd, evaluate_starting hp]
    simp only [Work.andThen, List.nil_append]
    split
    · split
      · exact ⟨hp, Unjoined.nil _⟩
      · exact ⟨(congrArg PhaseUnit.phase (seqStart_kept _ _ .phase (by decide))).trans hp, seqStart_unjoined _ _⟩
    · exact ⟨hp, Unjoined.nil _⟩
  cases sig with
  | evaluate =>
    simp only [handleSig, evaluate_starting hp]
    exact ⟨hp, Unjoined.nil _⟩
  | judge => exact ⟨(congrArg PhaseUnit.phase (judgeStep_kept _ _ .phase (by decide))).trans hp, judgeStep_unjoined _ _⟩
  | enteredJoined => exact absurd rfl hsig
  | seqEnded how =>
    have ends : (if s.phase.haltPending then haltedEnd s else otherEnd s).1.phase.phase = .starting
        ∧ Unjoined (if s.phase.haltPending then haltedEnd s else otherEnd s) := by
      split
      · exact halted
      · exact other
    cases how
    · exact other
    · exact ends
    · exact other
    · exact ends

theorem drain_starting {s : State} (hp : s.phase.phase = .starting) {sigs : List Sig} (hsigs : Sig.enteredJoined ∉ sigs) (fuel : Nat) :
    (drain fuel sigs s).phase.phase = .starting := by
  induction fuel generalizing sigs s with
  | zero => exact hp
  | succ n ih =>
    cases sigs with
    | nil => exact hp
    | cons sig rest =>
      rw [List.mem_cons, not_or] at hsigs
      obtain ⟨hphase, hun⟩ := handleSig_starting hp (Ne.symm hsigs.1)
      refine ih hphase ?_
      rw [List.mem_append, not_or]
      exact ⟨hsigs.2, hun⟩

end Sys2Proof.Machine
end

section
/-! ## The places of the section records: no change moves a record to another section (R40, R43) -/

namespace Sys2Proof.Machine

/-- A record of the same section and kind as another. -/
def Sect.SamePlace (r q : Sect) : Prop := q.id = r.id ∧ q.kind = r.kind

namespace Sect.SamePlace

variable {now : Time} {minSweep : Nat} {usable : Bool} {r q w : Sect}

theorem refl (r : Sect) : r.SamePlace r := ⟨rfl, rfl⟩

theorem trans (h : r.SamePlace q) (h' : q.SamePlace w) : r.SamePlace w := ⟨h'.1.trans h.1, h'.2.trans h.2⟩

theorem ite {c : Prop} [Decidable c] {x y : Sect} (hx : r.SamePlace x) (hy : r.SamePlace y) : r.SamePlace (if c then x else y) := by
  split <;> assumption

theorem disturb (r : Sect) : r.SamePlace r.disturb := ite (refl r) ⟨rfl, rfl⟩

theorem forget (r : Sect) : r.SamePlace r.forget := ite (refl r) ⟨rfl, rfl⟩

theorem loseOwner (n : Nat) (r : Sect) : r.SamePlace (r.loseOwner n) := by
  unfold Sect.loseOwner
  cases r.state
  case unknown => exact ite ⟨rfl, rfl⟩ (refl r)
  all_goals exact ⟨rfl, rfl⟩

theorem earlierDeadline (c : Time) (r : Sect) : r.SamePlace (r.earlierDeadline c) := by
  unfold Sect.earlierDeadline
  split
  · exact ⟨rfl, rfl⟩
  · exact ite ⟨rfl, rfl⟩ (refl r)

theorem candidate (c : Time) (r : Sect) : r.SamePlace (r.candidate c) := ite (earlierDeadline c r) (refl r)

theorem closeAtOnce (b : Sect) (taken : Bool) (r : Sect) : r.SamePlace (Sect.closeAtOnce now b taken r) := ite (earlierDeadline now r) (refl r)

theorem withEffective (st : SectState) (r : Sect) : r.SamePlace (r.withEffective st) := ite ⟨rfl, rfl⟩ ⟨rfl, rfl⟩

theorem emptied (r : Sect) : r.SamePlace r.emptied := ⟨rfl, rfl⟩

theorem setBase (d : Nat) (c : Option Counts) (r : Sect) : r.SamePlace (r.setBase d c) := ite ⟨rfl, rfl⟩ ⟨rfl, rfl⟩

theorem count (m : Moves) (r : Sect) : r.SamePlace (r.count minSweep usable m) := by
  have moved (b : Nat) (st : SectState) : r.SamePlace ({ r with balance := b }.withEffective st) := withEffective st { r with balance := b }
  have ended (b : Nat) : r.SamePlace r.disturb → r.SamePlace { r.disturb with balance := b } := fun h => h
  unfold Sect.count
  split
  · exact refl r
  next st _ =>
    refine ite (refl r) (ite (ended _ (disturb r)) (ite (ended _ (disturb r)) ?_))
    extract_lets b r1
    cases st
    case restoring => exact ite ((moved _ _).trans (emptied _)) ⟨rfl, rfl⟩
    all_goals exact ite ((moved _ _).trans (emptied _)) (moved b .occupied)

theorem applyMoves (m : Moves) (r : Sect) : r.SamePlace (r.applyMoves now minSweep usable m) := by
  unfold Sect.applyMoves
  extract_lets r1 r2 r3
  have h1 : r.SamePlace r1 := count m r
  have h2 : r.SamePlace r2 := ite (h1.trans (earlierDeadline _ _)) h1
  have h3 : r.SamePlace r3 := h2
  exact ite (ite (h3.trans (earlierDeadline _ _)) h3) h2

theorem applyFrame (reps : List DpCounts) (r : Sect) : r.SamePlace (r.applyFrame now minSweep usable reps) := by
  unfold Sect.applyFrame
  refine List.foldlRecOn _ _ (ite ((count _ r).trans (disturb _)) (ite (forget r) (applyMoves _ r))) fun q hq d _ => ?_
  exact hq.trans (setBase _ _ q)

theorem returnOwner (n : Nat) (r : Sect) : r.SamePlace (r.returnOwner now n) := by
  unfold Sect.returnOwner
  split
  · refine ite ?_ ⟨rfl, rfl⟩
    exact ite (trans ⟨rfl, rfl⟩ (earlierDeadline _ _)) ⟨rfl, rfl⟩
  · exact refl r

theorem ownAxle (u : DpUnit) (inward : Bool) (r : Sect) : r.SamePlace (r.ownAxle now minSweep usable u inward) :=
  (applyMoves _ r).trans (setBase _ _ _)

theorem crossingAxle (u : DpUnit) (a : Axle) (delay : Nat) (r : Sect) : r.SamePlace (r.crossingAxle now minSweep usable u a delay) :=
  ite ((ownAxle u a.inward r).trans (trans ⟨rfl, rfl⟩ (candidate _ _))) (ownAxle u a.inward r)

theorem reset (kind : ResetKind) (x y : Option Counts) (r : Sect) : r.SamePlace (r.reset kind x y) := ⟨rfl, rfl⟩

theorem stay (h : r.SamePlace q) : r.SamePlace (r.stay q) := by
  rcases Sect.stay_cases r q with he | ⟨-, he⟩ | ⟨-, he⟩ <;> rw [he]
  · exact h
  · exact ⟨rfl, rfl⟩
  · exact ⟨rfl, rfl⟩

end Sect.SamePlace

/-! ### Predicates over the section table that no command's own work breaks -/

/-- The same section records, with nothing else changed of what the laws of the phase and of the sequencer read. -/
structure SameTables (s t : State) : Prop where
  sections : t.sections = s.sections
  phase : t.phase.phase = s.phase.phase
  deferred : t.phase.deferred = s.phase.deferred
  cfg : t.cfg = s.cfg
  seq : t.seq = s.seq

/-- The join exchange is under way. -/
def Joining (s : State) : Prop := s.join.state = .calibrating ∨ s.join.state = .hailing

/-- A predicate that stays through changes of other parts of the state, through the steps of the join exchange, and through changes of a section record
in its place. -/
structure TableStable (I : State → Prop) : Prop where
  still : ∀ {s t : State}, SameTables s t → Joining s ∨ (t.join.state = s.join.state ∧ t.join.declared = s.join.declared) → I s → I t
  maps : ∀ {s : State} {id : Nat} {f : Sect → Sect}, (∀ r : Sect, r.SamePlace (f r)) → I s → I (mapSect id f s)

namespace TableStable

variable {I : State → Prop} (h : TableStable I)
include h

theorem kept {l : List Part} {s t : State} (hk : KeptBut l s t) (hl : ∀ p ∈ [Part.sections, .phase, .cfg, .seq, .join], p ∉ l) (hs : I s) : I t := by
  have hp : t.phase = s.phase := hk .phase (hl _ (by decide))
  have hj : t.join = s.join := hk .join (hl _ (by decide))
  exact h.still ⟨hk .sections (hl _ (by decide)), congrArg _ hp, congrArg _ hp, hk .cfg (hl _ (by decide)), hk .seq (hl _ (by decide))⟩
    (.inr ⟨congrArg _ hj, congrArg _ hj⟩) hs


end TableStable

end Sys2Proof.Machine
end

section
/-! ## What no command's own work breaks: the operations of the blocks -/

namespace Sys2Proof.Machine

namespace TableStable

section

variable {I : State → Prop} (h : TableStable I) {s : State}
include h

/-! ### The shared operations -/

omit h in
/-- A fold of operations that each keep a predicate keeps it. -/
theorem foldl {α : Type} {f : State → α → State} (hf : ∀ s x, I s → I (f s x)) (xs : List α) (hs : I s) : I (xs.foldl f s) :=
  List.foldlRecOn xs f hs fun t ht x _ => hf t x ht

theorem raiseCond {c : CondId} (hs : I s) : I (raiseCond c s) := h.kept (raiseCond_kept c s) (by decide) hs

theorem clearCond {c : CondId} (hs : I s) : I (clearCond c s) := h.kept (clearCond_kept c s) (by decide) hs

theorem request {w : TxWhat} (hs : I s) : I (request w s) := h.kept (request_kept w s) (by decide) hs

theorem putDp {u : DpUnit} (hs : I s) : I (putDp u s) := h.kept (putDp_kept u s) (by decide) hs

theorem putPort {c : PortCmd} {r : Option Reply} (hs : I s) : I (putPort c r s) := h.kept (putPort_kept c r s) (by decide) hs

theorem dropAccepted (hs : I s) : I (dropAccepted s) := h.kept (dropAccepted_kept s) (by decide) hs

theorem mapPeer {n : Nat} {f : Peer → Peer} (hs : I s) : I (mapPeer n f s) := h.kept (mapPeer_kept n f s) (by decide) hs

theorem mapView {d : Nat} {f : ViewEntry → ViewEntry} (hs : I s) : I (mapView d f s) := h.kept (mapView_kept d f s) (by decide) hs

/-- A change of the join unit that leaves its state alone. -/
theorem putJoin {f : JoinUnit → JoinUnit} (hf : ∀ j, (f j).state = j.state ∧ (f j).declared = j.declared) (hs : I s) : I (putJoin f s) :=
  h.still (s := s) ⟨rfl, rfl, rfl, rfl, rfl⟩ (.inr (hf s.join)) hs

theorem mapSects {ids : List Nat} {f : Sect → Sect} (hf : ∀ r : Sect, r.SamePlace (f r)) (hs : I s) : I (mapSects ids f s) :=
  foldl (fun _ _ ht => h.maps hf ht) ids hs

theorem dpFaultsSections {d : Nat} (hs : I s) : I (dpFaultsSections d s) := h.mapSects Sect.SamePlace.disturb hs

theorem loseOwner {n : Nat} (hs : I s) : I (loseOwner n s) :=
  h.mapSects (Sect.SamePlace.loseOwner n) (h.still (s := s) ⟨rfl, rfl, rfl, rfl, rfl⟩ (.inr ⟨rfl, rfl⟩) hs)

theorem peerCounts {reps : List DpCounts} {ret : Option Nat} {cand : Option (Nat × Time)} (hs : I s) : I (peerCounts reps ret cand s) := by
  refine foldl (fun w id hw => h.maps (fun r => ?_) hw) _ hs
  extract_lets r1 r2 c r3
  have h1 : r.SamePlace r1 := Sect.SamePlace.applyFrame _ r
  have h2 : r.SamePlace r2 := by
    unfold r2
    split
    · exact h1.trans (Sect.SamePlace.returnOwner _ _)
    · exact h1
  have h3 : r.SamePlace r3 := by
    unfold r3
    cases c
    · exact h2
    · exact h2.trans (Sect.SamePlace.candidate _ _)
  exact h3.trans (Sect.SamePlace.closeAtOnce _ _ _)

theorem applyReset {k : ResetKind} {id : Nat} (hs : I s) : I (applyReset k id s) := h.maps (Sect.SamePlace.reset _ _ _) hs

/-! ### Detection points and calibration (chapter 01) -/

section

variable {slot : Slot}

theorem setDpState (st : DpState) (hs : I s) : I (setDpState slot st s) := by
  unfold Machine.setDpState
  split
  · exact hs
  · extract_lets s1
    have h1 : I s1 := h.putDp hs
    repeat' split
    · exact h1
    · exact h.dpFaultsSections (h.raiseCond h1)
    · exact h.clearCond h1
    · exact h1

theorem dpWorks (hs : I s) : I (dpWorks slot s) := by
  unfold Machine.dpWorks
  split
  · exact hs
  · exact h.setDpState _ (h.putDp hs)

theorem settleDp (hs : I s) : I (settleDp slot s) := by
  unfold Machine.settleDp
  repeat' split
  · exact hs
  · exact h.setDpState _ hs
  · exact h.dpWorks hs

theorem unorderedEvent (t : Time) (hs : I s) : I (unorderedEvent slot t s) := by
  unfold Machine.unorderedEvent
  extract_lets s1
  have h1 : I s1 := h.kept (setLatch_kept _ s) (by decide) hs
  split
  · exact h1
  · extract_lets l
    split
    · exact h.setDpState _ (h.putDp h1)
    · exact h.putDp h1

theorem countAxle (u : DpUnit) (a : Axle) (hs : I s) : I (countAxle u a s) := by
  unfold Machine.countAxle
  extract_lets v s1 cross now tm speed measured s2 s3 s4 s5
  have h2 : I s2 := h.mapSects (fun _ => Sect.SamePlace.ownAxle _ _ _) (h.putDp hs)
  have h3 : I s3 := h.maps (fun _ => Sect.SamePlace.crossingAxle _ _ _ _) h2
  have h4 : I s4 :=
    h.kept (l := [.dps, .latches, .conds, .notices]) (KeptBut.ite (fun _ => noteSpeed_kept _ _ _ _) fun _ => KeptBut.refl _ _) (by decide) h3
  have h5 : I s5 := h.kept (l := [.latches, .conds, .notices])
    (KeptBut.ite (fun _ => ((setLatch_kept _ _).mono (by decide)).trans ((raiseCond_kept _ _).mono (by decide))) fun _ => KeptBut.refl _ _) (by decide) h4
  split
  · exact h.request h5
  · exact h5

theorem takeMove (u : DpUnit) (m : Recognised) (hs : I s) : I (takeMove u m s) := by
  unfold Machine.takeMove
  extract_lets u1 s1
  have h1 : I s1 := h.putDp hs
  split
  · exact h1
  · exact h.countAxle _ _ h1

theorem takeEdges (first second : Bool) (hs : I s) : I (takeEdges slot first second s) := by
  unfold Machine.takeEdges
  split
  · exact hs
  · extract_lets t u1 p
    repeat' split
    · exact h.putDp hs
    · exact h.putDp hs
    · exact h.unorderedEvent _ (h.putDp hs)
    · exact h.takeMove _ _ hs
    · exact h.takeMove _ _ hs

theorem startSweep (k : SweepKind) (hs : I s) : I (startSweep k slot s) := by
  unfold Machine.startSweep
  split
  · exact hs
  · exact h.setDpState _ (h.putDp hs)

theorem sweepReply (k : SweepKind) (x y : SweepResult) (hs : I s) : I (sweepReply k x y s) := h.kept (sweepReply_kept k x y s) (by decide) hs

theorem enterResult (p : HeadPos) (r : SweepResult) (hs : I s) : I (enterResult slot p r s) := by
  unfold Machine.enterResult
  repeat' split
  · exact hs
  · exact h.clearCond (h.putDp hs)
  · exact h.raiseCond hs
  · exact hs
  · exact hs

theorem endSweep (k : SweepKind) (x y : SweepResult) (l : Levels) (hs : I s) : I (endSweep slot k x y l s) := by
  unfold Machine.endSweep
  split
  · exact hs
  · exact h.sweepReply _ _ _ (h.settleDp (h.putDp hs))

theorem putSweep {u : DpUnit} {w : Sweep} (hs : I s) : I (putSweep u w s) := h.putDp hs

theorem headDone (w : Sweep) (r : SweepResult) (l : Levels) (hs : I s) : I (headDone slot w r l s) := by
  unfold Machine.headDone
  split
  · exact hs
  · extract_lets p s1
    have h1 : I s1 := h.enterResult _ _ hs
    repeat' split
    · exact h.endSweep _ _ _ _ h1
    · exact h1
    · exact h.putDp h1

theorem windowEnd (n : Nat) (l : Levels) (hs : I s) : I (windowEnd slot n l s) := by
  unfold Machine.windowEnd
  split
  · exact hs
  split
  · exact hs
  · extract_lets next prev
    repeat' split
    · exact h.putSweep hs
    · exact h.putSweep hs
    · exact h.headDone _ _ _ hs
    · exact h.putSweep hs
    · exact h.headDone _ _ _ hs

theorem abandonSweep (u : DpUnit) (w : Sweep) (l : Levels) (hs : I s) : I (abandonSweep slot u w l s) :=
  h.sweepReply _ _ _ (h.settleDp (h.putDp hs))

theorem abandonStart (u : DpUnit) (w : Sweep) (l : Levels) (hs : I s) : I (abandonStart slot u w l s) := by
  unfold Machine.abandonStart
  split
  · exact h.headDone _ _ _ hs
  · exact h.putSweep hs

theorem supplyCheck (p : HeadPos) (x : Nat) (l : Levels) (hs : I s) : I (supplyCheck slot p x l s) := by
  unfold Machine.supplyCheck
  split
  · exact hs
  · extract_lets u1 u2 s1
    have h1 : I s1 := h.putDp hs
    repeat' split
    · exact h.sweepReply _ _ _ (h.setDpState _ (h.putDp h1))
    · exact h.setDpState _ h1
    · exact h1
    · exact h.dpWorks h1
    · exact h1

/-- The entry into HAILING is a step of the join exchange (R87). -/
theorem leaveCalibrating (hs : I s) : I (leaveCalibrating s) := by
  unfold Machine.leaveCalibrating
  split
  next hc => exact h.request (h.still (s := s) ⟨rfl, rfl, rfl, rfl, rfl⟩ (.inl (.inl hc.1)) hs)
  next => exact hs

theorem calibrateAct (dp : Nat) (hs : I s) : I (calibrateAct dp s) := by
  unfold Machine.calibrateAct
  split
  · exact h.putPort hs
  split
  · exact h.startSweep _ (h.putPort hs)
  split
  · exact h.startSweep _ (h.putPort hs)
  · exact h.putPort hs

end

/-! ### Joining, peers and frames taken (chapters 03 to 05) -/

theorem setPeerState (n : Nat) (st : PeerState) (hs : I s) : I (setPeerState n st s) := by
  unfold Machine.setPeerState
  split
  · exact hs
  split
  · exact hs
  extract_lets p1 p2 s1 s2 s3 s4 s5 s6
  have hc {c : CondId} {b : Prop} [Decidable b] {w : State} (hw : I w) : I (if b then Machine.clearCond c w else w) := by
    split
    · exact h.clearCond hw
    · exact hw
  have hr {c : CondId} {b : Prop} [Decidable b] {w : State} (hw : I w) : I (if b then Machine.raiseCond c w else w) := by
    split
    · exact h.raiseCond hw
    · exact hw
  have h6 : I s6 := hr (hr (hc (hc (hc (h.kept (putPeer_kept p2 s) (by decide) hs)))))
  split
  · exact h.loseOwner h6
  · exact h6

theorem setVerdict (n : Nat) (v : Verdict) (hs : I s) : I (setVerdict n v s) := by
  unfold Machine.setVerdict
  split
  · exact h.still (s := s) ⟨rfl, rfl, rfl, rfl, rfl⟩ (.inr ⟨rfl, rfl⟩) hs
  · exact hs

/-- The end of joining is a step of the join exchange (R91, R92). -/
theorem endJoining (hj : s.join.state = .hailing) (hs : I s) : I (endJoining s).1 := by
  unfold Machine.endJoining
  split
  · unfold enterJoined
    extract_lets s1 s2
    have h1 : I s1 := h.still (s := s) ⟨rfl, rfl, rfl, rfl, rfl⟩ (.inl (.inr hj)) hs
    have h2 : I s2 := foldl (fun _ n hw => h.setPeerState n .stale hw) _ h1
    exact h.kept (queueStatus_kept _) (by decide) h2
  · unfold enterLockedOut
    extract_lets s1 line s2
    have h2 : I s2 := h.still (s := s) ⟨rfl, rfl, rfl, rfl, rfl⟩ (.inl (.inr hj)) hs
    split
    · exact h.kept (handCommand_kept _ _) (by decide) (h.kept (applyPattern_kept _ _ _) (by decide) h2)
    · exact h2

theorem testCompletion (hs : I s) : I (testCompletion s).1 := by
  unfold Machine.testCompletion
  split
  next hc => exact h.endJoining hc.1 hs
  next => exact hs

theorem answerHail (n : Nat) (hs : I s) : I (answerHail n s) := h.kept (answerHail_kept n s) (by decide) hs

theorem takeStrike (a : Accepted) (b : StrikeBody) (hs : I s) : I (takeStrike a b s) := by
  unfold Machine.takeStrike
  split
  · exact h.peerCounts (h.mapView hs)
  · exact hs

theorem enterDpState (e : Byte) (r : DpReport) (hs : I s) : I (enterDpState e s r) := by
  unfold Machine.enterDpState
  extract_lets before s1
  have h1 : I s1 := h.mapView hs
  split
  · exact h.dpFaultsSections h1
  · exact h1

theorem takeReports (n : Nat) (e : Byte) (l : List DpReport) (ret : Bool) (hs : I s) : I (takeReports n e l ret s) :=
  foldl (fun _ r hw => h.enterDpState e r hw) _ (h.peerCounts hs)

theorem takeJoin (a : Accepted) (b : JoinBody) (hs : I s) : I (takeJoin a b s) := by
  unfold Machine.takeJoin
  split
  · exact hs
  · exact h.setVerdict _ _ (h.setPeerState _ _ (h.mapPeer hs))

theorem attemptEnd (f : Flight) (hs : I s) : I (attemptEnd f s).1 := by
  unfold Machine.attemptEnd
  split
  · unfold attemptSent
    extract_lets s1
    have h1 : I s1 := h.kept (frameSent_kept _ _) (by decide) hs
    split
    · exact h.testCompletion (h.putJoin (fun _ => ⟨rfl, rfl⟩) h1)
    · exact h1
  · exact h.kept (attemptFailed_kept _ _) (by decide) hs

theorem resetAct (sec : Nat) (kind : ResetKind) (hs : I s) : I (resetAct sec kind s) := by
  unfold Machine.resetAct
  split
  · exact h.putPort hs
  · exact h.request (h.applyReset (h.putPort hs))

end

end TableStable

end Sys2Proof.Machine
end

section
/-! ## The laws of the phase and of the sequencer through an event (R105, R126, R137) -/

namespace Sys2Proof.Machine

/-! ### From the work of an event to its end -/

/-- What the work of an event leaves for its end: before JOINED the phase is STARTING with no entry into JOINED signalled, and an open crossing is over
clear islands, or the evaluation of the change is the one signal that follows. -/
structure LawfulWork (s : State) (w : Work) : Prop where
  early : w.1.join.state ≠ .joined → w.1.phase.phase = .starting ∧ Unjoined w
  fit : OpenFit w.1 ∨ (w.2 = [] ∧ phaseInputsChanged s w.1 = true)

section

variable {dt : Nat} {s : State} {f : State → Work}

theorem conclude_phase (s0 s1 : State) : (conclude s0 s1).phase = s1.phase := conclude_kept s0 s1 .phase (by decide)

theorem LawfulWork.phaseLaw (hp : s.powered = true) (h : LawfulWork (advance dt s) (f (advance dt s))) : PhaseLaw (event dt s f) := by
  rw [event_eq hp]
  generalize hw : f (advance dt s) = w at h
  generalize hx : (w.2 ++ if phaseInputsChanged (advance dt s) w.1 then [Sig.evaluate] else []) = sigs
  have hjoin : (conclude (advance dt s) (drain drainFuel sigs w.1)).join = w.1.join :=
    (conclude_kept _ _ .join (by decide)).trans (drain_kept _ _ _ .join (by decide))
  constructor
  · intro hne
    by_contra hj
    rw [hjoin] at hj
    obtain ⟨hstart, hun⟩ := h.early hj
    refine hne ?_
    rw [conclude_phase]
    refine drain_starting hstart ?_ _
    rw [← hx, List.mem_append, not_or]
    refine ⟨hun, ?_⟩
    split <;> simp
  · have hfit : OpenFit (drain drainFuel sigs w.1) := by
      rcases h.fit with hf | ⟨hnil, hchanged⟩
      · exact openFit_stable.drain hf
      · rw [← hx, hnil, hchanged]
        exact openFit_settled 1023 [] w.1
    exact hfit.of_kept (conclude_kept _ _) (by decide) (congrArg _ (conclude_phase _ _))

/-- The law of the sequencer's link at the end of an event, from the work of the event. -/
theorem seqLaw_event (hp : s.powered = true) (hl : Linked (f (advance dt s)).1)
    (ht : (f (advance dt s)).1.join.state ≠ .loading → (f (advance dt s)).1.join.state ≠ .lockedOut →
      ∀ l : ListName, (traceList (f (advance dt s)).1.cfg.steps 24 [] (headOf (f (advance dt s)).1.cfg l)).isSome = true) :
    SeqLaw (event dt s f) := by
  have hk := event_kept_work (f := f) (dt := dt) hp
  have hcfg : (event dt s f).cfg = (f (advance dt s)).1.cfg := hk .cfg (by decide)
  have hjoin : (event dt s f).join = (f (advance dt s)).1.join := hk .join (by decide)
  constructor
  · rw [hcfg, hjoin]
    exact ht
  · rw [event_eq hp]
    have hd := hl.drain (fuel := drainFuel) (sigs := (f (advance dt s)).2 ++ if phaseInputsChanged (advance dt s) (f (advance dt s)).1 then [.evaluate] else [])
    have hc := conclude_phase (advance dt s) (drain drainFuel ((f (advance dt s)).2 ++
      if phaseInputsChanged (advance dt s) (f (advance dt s)).1 then [.evaluate] else []) (f (advance dt s)).1)
    exact hd.of_kept (conclude_kept _ _) (by decide) (congrArg _ hc) (congrArg _ hc)

end

/-! ### Work on the tables -/

/-- What work on the tables leaves: every record in its place, the phase and the sequencer as they were, and the join state of a station that is not
joining. -/
structure Tabled (s t : State) : Prop where
  ids : t.sections.map (·.id) = s.sections.map (·.id)
  kinds : (∀ r ∈ s.sections, r.kind = sectKindOf r.id) → ∀ r ∈ t.sections, r.kind = sectKindOf r.id
  phase : t.phase.phase = s.phase.phase
  deferred : t.phase.deferred = s.phase.deferred
  cfg : t.cfg = s.cfg
  seq : t.seq = s.seq
  join : ¬Joining s → t.join.state = s.join.state

theorem Tabled.refl (s : State) : Tabled s s := ⟨rfl, id, rfl, rfl, rfl, rfl, fun _ => rfl⟩

/-- A change of one record leaves the ids of the table. -/
theorem mapSect_ids {id : Nat} {f : Sect → Sect} (hf : ∀ r : Sect, r.SamePlace (f r)) (s : State) :
    (mapSect id f s).sections.map (·.id) = s.sections.map (·.id) := by
  cases hat : sectAt s id with
  | none => rw [mapSect_of_none hat]
  | some r =>
    simp only [mapSect, hat]
    generalize hq : (if declaredLockout s then r.stay (f r) else f r) = q
    have hplace : r.SamePlace q := by
      rw [← hq]
      exact Sect.SamePlace.ite (Sect.SamePlace.stay (hf r)) (hf r)
    have hqid : q.id = id := hplace.1.trans (sectAt_id hat)
    rw [putSect_sections (by rw [hqid]; exact hat), List.map_map]
    refine List.map_congr_left fun x _ => ?_
    show (if x.id = q.id then q else x).id = x.id
    split
    next hx => exact hx.symm
    next => rfl

theorem tabled_stable (s : State) : TableStable (Tabled s) where
  still {u v} h hj ht := by
    refine ⟨by rw [h.sections, ht.ids], by rw [h.sections]; exact ht.kinds, h.phase.trans ht.phase, h.deferred.trans ht.deferred, h.cfg.trans ht.cfg,
      h.seq.trans ht.seq, fun hn => ?_⟩
    have hu := ht.join hn
    rcases hj with hj | ⟨hj, -⟩
    · exact absurd (by rw [Joining, hu] at hj; exact hj) hn
    · exact hj.trans hu
  maps {u id f} hf ht := by
    have hk := mapSect_kept id f u
    obtain ⟨l, hl⟩ := mapSect_phaseUnit id f u
    have hjoin : (mapSect id f u).join = u.join := hk .join (by decide)
    refine ⟨(mapSect_ids hf u).trans ht.ids, fun hs q hq => ?_, by rw [hl, ht.phase], by rw [hl, ht.deferred], (hk .cfg (by decide)).trans ht.cfg,
      (hk .seq (by decide)).trans ht.seq, fun hn => by rw [hjoin, ht.join hn]⟩
    have hkinds := ht.kinds hs
    rcases mem_mapSect (fun r => (hf r).1) hq with ⟨hmem, -⟩ | ⟨r, hr, rfl⟩
    · exact hkinds q hmem
    · have hplace : r.SamePlace (if declaredLockout u then r.stay (f r) else f r) := Sect.SamePlace.ite (Sect.SamePlace.stay (hf r)) (hf r)
      rw [hplace.1, hplace.2]
      exact hkinds r (sectAt_mem hr)

/-! ### What the phase unit watches decides the law of an open crossing (R106) -/

theorem failureDemand_false_iff {s : State} : failureDemand s = false ↔ s.join.state = .joined ∧ (∀ p ∈ s.peers, p.state = .live)
    ∧ ∀ r ∈ s.sections, r.state ≠ .unknown ∧ r.state ≠ .disturbed := by
  have hnil : (failureCauses s).isEmpty = true ↔ ∀ c, c ∉ failureCauses s := by rw [List.isEmpty_iff, List.eq_nil_iff_forall_not_mem]
  simp only [failureDemand, Bool.or_eq_false_iff, bne_eq_false_iff_eq, Bool.not_eq_false', hnil]
  refine and_congr_right fun _ => ⟨fun h => ⟨fun p hp => ?_, fun r hr => ⟨fun hst => ?_, fun hst => ?_⟩⟩, fun ⟨hpeers, hsects⟩ c hc => ?_⟩
  · cases hst : p.state with
    | live => rfl
    | mismatched => exact absurd (mem_failureCauses.2 (.inl ⟨p, hp, hst, rfl⟩)) (h _)
    | unheard => exact absurd (mem_failureCauses.2 (.inr (.inl ⟨p, hp, .inl hst, rfl⟩))) (h _)
    | hailing => exact absurd (mem_failureCauses.2 (.inr (.inl ⟨p, hp, .inr (.inl hst), rfl⟩))) (h _)
    | stale => exact absurd (mem_failureCauses.2 (.inr (.inl ⟨p, hp, .inr (.inr hst), rfl⟩))) (h _)
  · exact h _ (mem_failureCauses.2 (.inr (.inr (.inl ⟨r, hr, hst, rfl⟩))))
  · exact h _ (mem_failureCauses.2 (.inr (.inr (.inr ⟨r, hr, hst, rfl⟩))))
  · rcases mem_failureCauses.1 hc with ⟨p, hp, hst, -⟩ | ⟨p, hp, hst, -⟩ | ⟨r, hr, hst, -⟩ | ⟨r, hr, hst, -⟩
    · rw [hpeers p hp] at hst
      cases hst
    · rw [hpeers p hp] at hst
      rcases hst with hst | hst | hst <;> cases hst
    · exact (hsects r hr).1 hst
    · exact (hsects r hr).2 hst

theorem phaseInputsChanged_false {s t : State} (h : phaseInputsChanged s t = false) :
    t.sections.map Sect.watched = s.sections.map Sect.watched ∧ t.peers.map Peer.watched = s.peers.map Peer.watched := by
  simp only [phaseInputsChanged, Bool.or_eq_false_iff, bne_eq_false_iff_eq] at h
  exact ⟨h.1.symm, h.2.symm⟩

/-- Records in their places whose watched fields have not changed are clear where they were. -/
theorem islandsClear_of_watched {s t : State} (hids : t.sections.map (·.id) = s.sections.map (·.id))
    (hw : t.sections.map Sect.watched = s.sections.map Sect.watched) (hs : ∀ r ∈ s.sections, r.kind = sectKindOf r.id)
    (ht : ∀ r ∈ t.sections, r.kind = sectKindOf r.id) : islandsClear t = islandsClear s := by
  have read (l : List Sect) (hl : ∀ r ∈ l, r.kind = sectKindOf r.id) : l.all (fun r => r.isApproach || r.state == .clear)
      = (l.map fun r => (r.id, r.watched)).all fun x => sectKindOf x.1 != .island || x.2.1 == .clear := by
    rw [List.all_map, Bool.eq_iff_iff, List.all_eq_true, List.all_eq_true]
    exact forall₂_congr fun r hr => by simp [Sect.isApproach, Sect.watched, hl r hr]
  have hpair : t.sections.map (fun r => (r.id, r.watched)) = s.sections.map fun r => (r.id, r.watched) := by
    rw [← List.zip_map' (f := fun r : Sect => r.id) (g := Sect.watched), ← List.zip_map' (f := fun r : Sect => r.id) (g := Sect.watched), hids, hw]
  rw [islandsClear, islandsClear, read _ ht, read _ hs, hpair]

/-- Work on the tables that changes nothing watched leaves an open crossing over clear islands. -/
theorem Tabled.openFit {s t : State} (h : Tabled s t) (hs : SectionLaw s) (hp : PhaseLaw s) (hw : phaseInputsChanged s t = false) : OpenFit t := by
  intro ho
  rw [OpenPhase, h.phase] at ho
  obtain ⟨hislands, hfail⟩ := hp.2 ho
  obtain ⟨hsects, hpeers⟩ := phaseInputsChanged_false hw
  have hkinds : ∀ r ∈ s.sections, r.kind = sectKindOf r.id := fun r hr => (hs r hr).1
  obtain ⟨hj, hlive, hknown⟩ := failureDemand_false_iff.1 hfail
  have hstates : t.sections.map (·.state) = s.sections.map (·.state) := by
    have hm := congrArg (List.map Prod.fst) hsects
    rw [List.map_map, List.map_map] at hm
    exact hm
  have hpstates : t.peers.map (·.state) = s.peers.map (·.state) := by
    have hm := congrArg (List.map Prod.fst) hpeers
    rw [List.map_map, List.map_map] at hm
    exact hm
  refine ⟨(islandsClear_of_watched h.ids hsects hkinds (h.kinds hkinds)).trans hislands, failureDemand_false_iff.2 ⟨?_, ?_, ?_⟩⟩
  · rw [h.join (by simp [Joining, hj]), hj]
  · rw [← List.forall_mem_map (f := fun p : Peer => p.state) (P := fun x => x = .live), hpstates, List.forall_mem_map]
    exact hlive
  · rw [← List.forall_mem_map (f := fun r : Sect => r.state) (P := fun x => x ≠ .unknown ∧ x ≠ .disturbed), hstates, List.forall_mem_map]
    exact hknown

end Sys2Proof.Machine
end

section
/-! ## The own work of the commands that neither start the station nor walk a list nor take a STATUS -/

namespace Sys2Proof.Machine

/-- The signals that work on the tables gives: of the entry into JOINED only in JOINED, and in a station that is not joining none that goes with a change
of sections or peers. -/
structure FairSignals (s : State) (w : Work) : Prop where
  joined : Sig.enteredJoined ∈ w.2 → w.1.join.state = .joined
  quiet : w.2 = [] ∨ Joining s ∨ (w.1.sections = s.sections ∧ w.1.peers = s.peers)

/-- Work on the tables: it keeps whatever changes of records in their places and steps of the join exchange keep, and its signals are fair. -/
structure TableWork (f : State → Work) : Prop where
  stable : ∀ {I : State → Prop}, TableStable I → ∀ s, I s → I (f s).1
  signals : ∀ s, FairSignals s (f s)

theorem FairSignals.nil (s t : State) : FairSignals s (t, []) := ⟨fun h => absurd h List.not_mem_nil, .inl rfl⟩

theorem FairSignals.of_kept {l : List Part} {s : State} {w : Work} (hk : KeptBut l s w.1) (hl : ∀ p ∈ [Part.sections, .peers], p ∉ l)
    (hw : Unjoined w) : FairSignals s w :=
  ⟨fun h => absurd h hw, .inr (.inr ⟨hk .sections (hl _ (by decide)), hk .peers (hl _ (by decide))⟩)⟩

namespace TableWork

theorem plain {g : State → State} (hg : ∀ {I : State → Prop}, TableStable I → ∀ s, I s → I (g s)) : TableWork (plain g) :=
  ⟨hg, fun s => FairSignals.nil s _⟩

/-- Work of other parts of the state, without signals. -/
theorem plain_of_kept {l : List Part} {g : State → State} (hg : ∀ s, KeptBut l s (g s))
    (hl : ∀ p ∈ [Part.sections, .phase, .cfg, .seq, .join], p ∉ l) : TableWork (Machine.plain g) :=
  plain fun h s hs => h.kept (hg s) hl hs

/-- Work of other parts of the state, with signals of its own. -/
theorem of_kept {l : List Part} {f : State → Work} (hf : ∀ s, KeptBut l s (f s).1)
    (hl : ∀ p ∈ [Part.sections, .phase, .cfg, .seq, .join, .peers], p ∉ l) (hs : ∀ s, Unjoined (f s)) : TableWork f :=
  ⟨fun h s => h.kept (hf s) fun p hp => hl p (List.mem_append_left [Part.peers] hp),
    fun s => .of_kept (hf s) (fun p hp => hl p (by revert hp; revert p; decide)) (hs s)⟩

theorem guarded {f : State → Work} (hf : TableWork f) (c : State → Bool) : TableWork (guarded c f) := by
  refine ⟨fun h s hs => ?_, fun s => ?_⟩ <;> unfold Machine.guarded <;> split
  · exact hf.stable h s hs
  · exact hs
  · exact hf.signals s
  · exact FairSignals.nil s s

theorem takeCommand {cmd : PortCmd} {act : State → State} (ha : ∀ {I : State → Prop}, TableStable I → ∀ s, I s → I (act s)) :
    TableWork (Machine.plain (takeCommand cmd act)) := plain fun h s hs => by
  unfold Machine.takeCommand
  split
  · exact h.kept (busyPort_kept s) (by decide) hs
  split
  · exact h.putPort hs
  · exact ha h s hs

theorem answered {cmd : PortCmd} {r : State → Reply} : TableWork (Machine.plain (answered cmd r)) := takeCommand fun h _ hs => h.putPort hs

end TableWork

/-- A command whose own work is work on the tables. -/
def OnTables (c : Instr) : Prop := ∃ (dt : Nat) (f : State → Work), (∀ s, exec c s = .next (event dt s f)) ∧ TableWork f

theorem OnTables.of_event {c : Instr} {dt : Nat} {f : State → Work} (he : ∀ s, exec c s = .next (event dt s f)) (hf : TableWork f) : OnTables c :=
  ⟨dt, f, he, hf⟩

/-- A record of other parts alone. -/
theorem TableStable.parts {I : State → Prop} (h : TableStable I) {s t : State} (hsect : t.sections = s.sections) (hphase : t.phase = s.phase)
    (hcfg : t.cfg = s.cfg) (hseq : t.seq = s.seq) (hjoin : t.join = s.join) (hs : I s) : I t :=
  h.still ⟨hsect, congrArg _ hphase, congrArg _ hphase, hcfg, hseq⟩ (.inr ⟨congrArg _ hjoin, congrArg _ hjoin⟩) hs

/-! ### The end of the join exchange (R91, R92) -/

theorem enterJoined_join (s : State) : (enterJoined s).1.join = { s.join with state := .joined, windowStart := none } := by
  unfold enterJoined
  extract_lets s1 s2
  have h2 : s2.join = s1.join := KeptBut.foldl _ (fun t n => setPeerState_kept n .stale t) _ s1 .join (by decide)
  rw [queueStatus_kept s2 .join (by decide), h2]
  rfl

theorem enterLockedOut_join (s : State) : (enterLockedOut s).1.join
    = { s.join with state := .lockedOut, windowStart := none, nextHail := later s.clock.ms 200, lowerStart := some s.clock.ms } := by
  unfold enterLockedOut
  extract_lets s1 line s2
  split
  · rw [handCommand_kept _ _ .join (by decide), applyPattern_kept _ _ _ .join (by decide)]
    rfl
  · rfl

theorem enterLockedOut_unjoined (s : State) : Unjoined (enterLockedOut s) := by
  unfold enterLockedOut
  extract_lets s1 line s2
  split
  · exact handCommand_unjoined _ _
  · exact Unjoined.nil _

theorem endJoining_joined {s : State} (h : Sig.enteredJoined ∈ (endJoining s).2) : (endJoining s).1.join.state = .joined := by
  rw [endJoining] at h ⊢
  split_ifs at h ⊢
  · rw [enterJoined_join]
  · exact absurd h (enterLockedOut_unjoined s)

theorem testCompletion_signals {s0 s : State} (h0 : Joining s → Joining s0) : FairSignals s0 (testCompletion s) := by
  unfold testCompletion
  split
  next hc => exact ⟨endJoining_joined, .inr (.inl (h0 (.inr hc.1)))⟩
  next => exact FairSignals.nil _ _

/-- Operations that stay within the tables bring no station into the join exchange. -/
theorem joining_of_tables {s t : State} (h : ∀ {I : State → Prop}, TableStable I → I s → I t) (hj : Joining t) : Joining s := by
  by_contra hn
  have ht := (h (tabled_stable s) (Tabled.refl s)).join hn
  rw [Joining, ht] at hj
  exact hn hj

/-! ### The commands -/

/-- A change of the barrier's record and conditions, with the drive found again. -/
theorem TableWork.settled {g : State → State} (hg : ∀ s, KeptBut [.barrier, .conds, .notices] s (g s)) : TableWork fun s => barrierSettle (g s) :=
  .of_kept (l := [.barrier, .conds, .notices]) (fun s => (hg s).trans (barrierSettle_kept _)) (by decide) fun s => barrierSettle_unjoined _

/-- A change of the barrier's record alone. -/
theorem changedBarrier_kept (b : BarrierUnit) (s : State) : KeptBut [.barrier, .conds, .notices] s { s with barrier := b } := by
  intro p hp; cases p <;> first | rfl | exact ⟨rfl, rfl⟩ | exact absurd (by decide) hp

theorem contactSet_unjoined (first : Bool) (b : BarrierUnit) (s : State) : Unjoined (contactSet first b s) := by
  unfold contactSet
  extract_lets b0 b1
  split
  · exact barrierSettle_unjoined _
  · exact barrierSettle_unjoined _

namespace OnTables

variable (dt : Nat)

theorem contactChange (contact : Contact) : OnTables (.contactChange dt contact) := .of_event (fun _ => rfl) (.guarded (by
  refine .of_kept (l := [.barrier, .conds, .notices]) (fun s => ?_) (by decide) fun s => ?_ <;> split
  · exact KeptBut.refl _ s
  · exact (changedBarrier_kept _ s).trans (contactSet_kept _ _ _)
  · exact Unjoined.nil s
  · exact contactSet_unjoined _ _ _) _)

theorem contactSample (input : FieldInput) (level : Bool) : OnTables (.contactSample dt input level) := by
  cases input with
  | contact c =>
    refine .of_event (fun _ => rfl) (.guarded (.of_kept (l := [.barrier, .conds, .notices]) (fun s => ?_) (by decide) fun s => ?_) _)
      <;> unfold Machine.contactSample <;> split
    · exact KeptBut.refl _ s
    · extract_lets s1
      split
      · exact (changedBarrier_kept _ s).trans (contactSet_kept _ _ _)
      · exact changedBarrier_kept _ s
    · exact Unjoined.nil s
    · extract_lets s1
      split
      · exact contactSet_unjoined _ _ _
      · exact Unjoined.nil _
  | key =>
    refine .of_event (fun _ => rfl) (.plain fun h s hs => ?_)
    unfold keySample
    split
    · exact hs
    · exact h.parts (s := s) rfl rfl rfl rfl rfl hs

theorem travelTimeout : OnTables (.travelTimeout dt) := .of_event (fun _ => rfl) (.guarded (by
  refine .of_kept (l := [.barrier, .conds, .notices]) (fun s => ?_) (by decide) fun s => ?_ <;> unfold travelEnd <;> split
  · exact (changedBarrier_kept _ s).trans (barrierSettle_kept _)
  · exact ((changedBarrier_kept _ s).trans ((raiseCond_kept _ _).mono (by decide))).trans (barrierSettle_kept _)
  · exact barrierSettle_unjoined _
  · exact barrierSettle_unjoined _) _)

theorem contactFaultTimeout : OnTables (.contactFaultTimeout dt) := .of_event (fun _ => rfl) (.guarded (by
  refine .of_kept (l := [.barrier, .conds, .notices]) (fun s => ?_) (by decide) fun s => barrierSettle_unjoined _
  exact ((changedBarrier_kept _ s).trans ((raiseCond_kept _ _).mono (by decide))).trans (barrierSettle_kept _)) _)

theorem lockoutLowerTimer : OnTables (.lockoutLowerTimer dt) := .of_event (fun _ => rfl) (.guarded (by
  have hk (s : State) := handCommand_kept .lower (putJoin (fun j => { j with lowerStart := none }) s)
  refine ⟨fun h s hs => ?_, fun s => ⟨fun hm => absurd hm (handCommand_unjoined _ _), .inr (.inr ⟨?_, ?_⟩)⟩⟩
  · exact h.kept (hk s) (by decide) (h.putJoin (fun _ => ⟨rfl, rfl⟩) hs)
  · exact hk s .sections (by decide)
  · exact hk s .peers (by decide)) _)

theorem releaseTimerExpiry : OnTables (.releaseTimerExpiry dt) := .of_event (fun _ => rfl) (.guarded
  ⟨fun h s hs => h.still (s := s) ⟨rfl, rfl, rfl, rfl, rfl⟩ (.inr ⟨rfl, rfl⟩) hs, fun s => ⟨by simp, .inr (.inr ⟨rfl, rfl⟩)⟩⟩ _)

theorem standingTestTime (sec : Nat) : OnTables (.standingTestTime dt sec) := .of_event (fun _ => rfl) (.guarded
  ⟨fun h s hs => h.still (s := s) ⟨rfl, rfl, rfl, rfl, rfl⟩ (.inr ⟨rfl, rfl⟩) hs, fun s => ⟨by simp, .inr (.inr ⟨rfl, rfl⟩)⟩⟩ _)

theorem sweepAbandoned (slot : Slot) (cause : AbandonCause) (levels : Levels) : OnTables (.sweepAbandoned dt slot cause levels) :=
  .of_event (fun _ => rfl) (.plain fun h s hs => by
    split
    · exact hs
    split
    · exact hs
    split
    · extract_lets s1
      have h1 : _ := h.kept (setLatch_kept .calAbandoned s) (by decide) hs
      split
      · exact h.leaveCalibrating (h.abandonStart _ _ _ h1)
      · exact h.abandonSweep _ _ _ h1
    · exact hs)

theorem dueSweepStart (slot : Slot) : OnTables (.dueSweepStart dt slot) := .of_event (fun _ => rfl) (.plain fun h s hs => by
  repeat' split
  · exact hs
  · exact h.startSweep _ hs
  · exact hs)

theorem frameAttemptEnd : OnTables (.frameAttemptEnd dt) := .of_event (fun _ => rfl) ⟨fun h s hs => by
    repeat' split
    · exact hs
    · exact h.attemptEnd _ hs
    · exact hs, fun s => by
    repeat' split
    · exact FairSignals.nil _ _
    next f _ _ =>
      unfold attemptEnd
      split
      · unfold attemptSent
        extract_lets s1
        split
        · have hsent : s1.join = s.join := frameSent_kept _ _ .join (by decide)
          exact testCompletion_signals fun hj => by
            rw [Joining, putJoin_join, hsent] at hj
            exact hj
        · exact FairSignals.nil _ _
      · exact FairSignals.nil _ _
    · exact FairSignals.nil _ _⟩

theorem joinWindowEnd : OnTables (.joinWindowEnd dt) := .of_event (fun _ => rfl) (by
  refine ⟨fun h s hs => ?_, fun s => ?_⟩ <;> unfold guarded <;> split
  next hc =>
    simp only [Bool.and_eq_true, beq_iff_eq] at hc
    exact h.endJoining hc.1 hs
  next => exact hs
  next hc =>
    simp only [Bool.and_eq_true, beq_iff_eq] at hc
    exact ⟨endJoining_joined, .inr (.inl (.inr hc.1))⟩
  next => exact FairSignals.nil _ _)

theorem strikeTaken : OnTables (.strikeTaken dt) := .of_event (fun _ => rfl) (.plain fun h s hs => by
  split
  · exact hs
  split
  · exact h.takeStrike _ _ (h.dropAccepted hs)
  iterate 3 exact hs)

theorem hailTaken : OnTables (.hailTaken dt) := .of_event (fun _ => rfl) ⟨fun h s hs => by
    split
    · exact hs
    split
    · split
      · exact h.testCompletion (h.answerHail _ (h.takeJoin _ _ (h.dropAccepted hs)))
      · exact hs
    iterate 3 exact hs, fun s => by
    split
    · exact FairSignals.nil _ _
    split
    · split
      · exact testCompletion_signals (joining_of_tables fun h hs => h.answerHail _ (h.takeJoin _ _ (h.dropAccepted hs)))
      · exact FairSignals.nil _ _
    iterate 3 exact FairSignals.nil _ _⟩

theorem answerTaken : OnTables (.answerTaken dt) := .of_event (fun _ => rfl) ⟨fun h s hs => by
    split
    · exact hs
    split
    · split
      · exact h.testCompletion (h.takeJoin _ _ (h.dropAccepted hs))
      · exact hs
    iterate 3 exact hs, fun s => by
    split
    · exact FairSignals.nil _ _
    split
    · split
      · exact testCompletion_signals (joining_of_tables fun h hs => h.takeJoin _ _ (h.dropAccepted hs))
      · exact FairSignals.nil _ _
    iterate 3 exact FairSignals.nil _ _⟩

theorem resetOrderTaken : OnTables (.resetOrderTaken dt) := .of_event (fun _ => rfl) (.plain fun h s hs => by
  split
  · exact hs
  split
  · split
    · exact h.applyReset (h.dropAccepted hs)
    · exact h.dropAccepted hs
  iterate 3 exact hs)

/-! Commands whose work is a change of other parts. -/

theorem flashCycleBoundary : OnTables (.flashCycleBoundary dt) := .of_event (fun _ => rfl) (.plain fun h s hs => by
  unfold cycleBoundary
  repeat' split
  all_goals exact h.parts (s := s) rfl rfl rfl rfl rfl hs)

theorem lampHotSample (a : Aspect) (x y : Nat) : OnTables (.lampHotSample dt a x y) := .of_event (fun _ => rfl) (.guarded (.plain fun h s hs => by
  exact h.kept (aspectResults_kept _ _ _ _ _) (by decide) (h.parts (s := s) rfl rfl rfl rfl rfl hs)) _)

theorem lampTestSample (currents : LampCurrents) : OnTables (.lampTestSample dt currents) := .of_event (fun _ => rfl) (.plain fun {I} h s hs => by
  have test {b : Bool} {a : Aspect} {lim : Limits} {x y : Nat} {w : State} (hw : I w) : I (if b then aspectTest a lim x y w else w) :=
    h.kept (l := [.lights, .conds, .notices]) (KeptBut.ite (fun _ => aspectTest_kept _ _ _ _ _) fun _ => KeptBut.refl _ _) (by decide) hw
  split
  · exact hs
  split
  · exact test (test (test (h.parts (s := s) rfl rfl rfl rfl rfl hs)))
  · exact hs)

theorem testPulseEnd (unit : PulseUnit) : OnTables (.testPulseEnd dt unit) := .of_event (fun _ => rfl) (.guarded (.plain fun h s hs => by
  cases unit
  · exact h.kept (endPulse_kept .lamps s) (by decide) hs
  · exact h.kept (endPulse_kept .dcis s) (by decide) hs) _)

theorem idleGapEnd : OnTables (.idleGapEnd dt) := .of_event (fun _ => rfl) (.plain fun h s hs => by
  split
  · exact hs
  · exact h.kept (contend_kept _) (by decide) (h.parts (s := s) rfl rfl rfl rfl rfl hs))

end OnTables

end Sys2Proof.Machine
end

section
/-! ## Which commands work on the tables alone -/

namespace Sys2Proof.Machine

/-- The commands with other work: the resets, the return of the supply and the end of LOADING, the two timers of the sequencer, a STATUS taken. -/
inductive OffTables : Instr → Prop
  | powerOnReset (dt : Nat) : OffTables (.powerOnReset dt)
  | supplyRestored (dt : Nat) : OffTables (.supplyRestored dt)
  | maintainerReplyEnd (dt : Nat) : OffTables (.maintainerReplyEnd dt)
  | loadingEnd (dt : Nat) (answers : Bool) (readBack : Option Byte) : OffTables (.loadingEnd dt answers readBack)
  | dwellEnd (dt : Nat) : OffTables (.dwellEnd dt)
  | waitLimitExpiry (dt : Nat) : OffTables (.waitLimitExpiry dt)
  | statusTaken (dt : Nat) : OffTables (.statusTaken dt)

theorem onTables_or_offTables (c : Instr) : OnTables c ∨ OffTables c := by
  cases c with
  | powerOnReset dt => exact .inr (.powerOnReset dt)
  | supplyRestored dt => exact .inr (.supplyRestored dt)
  | maintainerReplyEnd dt => exact .inr (.maintainerReplyEnd dt)
  | loadingEnd dt answers readBack => exact .inr (.loadingEnd dt answers readBack)
  | dwellEnd dt => exact .inr (.dwellEnd dt)
  | waitLimitExpiry dt => exact .inr (.waitLimitExpiry dt)
  | statusTaken dt => exact .inr (.statusTaken dt)
  | acceptedEdge dt slot first second => exact .inl (.of_event (fun _ => rfl) (.guarded (.plain fun h _ hs => h.takeEdges _ _ hs) _))
  | headSupplyCheck dt slot head mA levels =>
    exact .inl (.of_event (fun _ => rfl) (.plain fun h _ hs => h.leaveCalibrating (h.supplyCheck _ _ _ hs)))
  | probeWindowEnd dt slot lowest levels =>
    exact .inl (.of_event (fun _ => rfl) (.guarded (.plain fun h _ hs => h.leaveCalibrating (h.windowEnd _ _ hs)) _))
  | sweepAbandoned dt slot cause levels => exact .inl (OnTables.sweepAbandoned dt slot cause levels)
  | dueSweepStart dt slot => exact .inl (OnTables.dueSweepStart dt slot)
  | firstCoverAged dt slot =>
    refine .inl (.of_event (fun _ => rfl) (.plain fun h s hs => ?_))
    repeat' split
    · exact hs
    · exact h.putDp hs
    · exact hs
  | calibrationTimerExpiry dt slot =>
    refine .inl (.of_event (fun _ => rfl) (.plain fun h s hs => ?_))
    repeat' split
    · exact hs
    · exact h.putDp hs
    · exact hs
  | comparatorSample dt slot head level => exact .inl (.of_event (fun _ => rfl) (.plain_of_kept (takeSample_kept slot head level) (by decide)))
  | deadlineExpiry dt sec =>
    exact .inl (.of_event (fun _ => rfl) (.guarded ⟨fun _ _ hs => hs, fun _ => ⟨by simp, .inr (.inr ⟨rfl, rfl⟩)⟩⟩ _))
  | releaseTimerExpiry dt => exact .inl (OnTables.releaseTimerExpiry dt)
  | standingTestTime dt sec => exact .inl (OnTables.standingTestTime dt sec)
  | flashCycleBoundary dt => exact .inl (OnTables.flashCycleBoundary dt)
  | flashHalfPoint dt => exact .inl (.of_event (fun _ => rfl) (.guarded (.plain fun h s hs => by exact h.parts (s := s) rfl rfl rfl rfl rfl hs) _))
  | correctionLengthenEnd dt =>
    refine .inl (.of_event (fun _ => rfl) (.plain fun h s hs => ?_))
    split <;> [exact hs; exact h.parts (s := s) rfl rfl rfl rfl rfl hs]
  | lampHotSample dt aspect main second => exact .inl (OnTables.lampHotSample dt aspect main second)
  | lampColdTest dt => exact .inl (.of_event (fun _ => rfl) (.guarded (.plain fun h s hs => by exact h.parts (s := s) rfl rfl rfl rfl rfl hs) _))
  | lampTestSample dt currents => exact .inl (OnTables.lampTestSample dt currents)
  | testPulseEnd dt unit => exact .inl (OnTables.testPulseEnd dt unit)
  | contactChange dt contact => exact .inl (OnTables.contactChange dt contact)
  | contactSample dt input level => exact .inl (OnTables.contactSample dt input level)
  | deadTimeEnd dt => exact .inl (.of_event (fun _ => rfl) (.settled (g := fun s => s) fun s => KeptBut.refl _ s))
  | travelTimeout dt => exact .inl (OnTables.travelTimeout dt)
  | contactFaultTimeout dt => exact .inl (OnTables.contactFaultTimeout dt)
  | lockoutLowerTimer dt => exact .inl (OnTables.lockoutLowerTimer dt)
  | keyInputChange dt =>
    refine .inl (.of_event (fun _ => rfl) (.plain fun h s hs => ?_))
    split <;> [exact hs; exact h.parts (s := s) rfl rfl rfl rfl rfl hs]
  | dciHotSample dt out mA =>
    exact .inl (.of_event (fun _ => rfl) (.guarded (.plain fun h s hs => by
      exact h.kept (dciResult_kept _ _ _) (by decide) (h.parts (s := s) rfl rfl rfl rfl rfl hs)) _))
  | dciColdTest dt => exact .inl (.of_event (fun _ => rfl) (.guarded (.plain fun h s hs => by exact h.parts (s := s) rfl rfl rfl rfl rfl hs) _))
  | dciTestSample dt mA0 mA1 =>
    refine .inl (.of_event (fun _ => rfl) (.plain fun h s hs => ?_))
    repeat' split
    · exact hs
    · exact h.parts (s := s) rfl rfl rfl rfl rfl hs
    · exact hs
  | carrierStart dt line => exact .inl (.of_event (fun _ => rfl) (.plain_of_kept (mapLine_kept _ line) (by decide)))
  | endOfCarrier dt line => exact .inl (.of_event (fun _ => rfl) (.plain_of_kept (mapLine_kept _ line) (by decide)))
  | idleGapEnd dt => exact .inl (OnTables.idleGapEnd dt)
  | holdoffEnd dt => exact .inl (.of_event (fun _ => rfl) (.plain_of_kept contend_kept (by decide)))
  | readbackMismatch dt line carrierRemains =>
    refine .inl (.of_event (fun _ => rfl) (.guarded (.plain fun h s hs => ?_) _))
    cases line <;> exact h.parts (s := s) rfl rfl rfl rfl rfl hs
  | frameAttemptEnd dt => exact .inl (OnTables.frameAttemptEnd dt)
  | statusPeriodExpiry dt => exact .inl (.of_event (fun _ => rfl) (.guarded (.plain_of_kept queueStatus_kept (by decide)) _))
  | statusHoldbackEnd dt => exact .inl (.of_event (fun _ => rfl) (.guarded (.plain_of_kept queueStatus_kept (by decide)) _))
  | frameReceived dt line bytes =>
    exact .inl (.of_event (fun _ => rfl) (.guarded (.plain_of_kept (receive_kept line bytes) (by decide)) _))
  | copyFilterEntryExpiry dt =>
    exact .inl (.of_event (fun _ => rfl) (.guarded (.plain fun h s hs => by exact h.parts (s := s) rfl rfl rfl rfl rfl hs) _))
  | lineSilence dt line => exact .inl (.of_event (fun _ => rfl) (.guarded (.plain_of_kept (lineFails_kept line) (by decide)) _))
  | strikeTaken dt => exact .inl (OnTables.strikeTaken dt)
  | hailTaken dt => exact .inl (OnTables.hailTaken dt)
  | answerTaken dt => exact .inl (OnTables.answerTaken dt)
  | resetOrderTaken dt => exact .inl (OnTables.resetOrderTaken dt)
  | hailTimer dt =>
    exact .inl (.of_event (fun _ => rfl) (.guarded (.plain fun h s hs => by exact h.request (h.putJoin (fun _ => ⟨rfl, rfl⟩) hs)) _))
  | joinWindowEnd dt => exact .inl (OnTables.joinWindowEnd dt)
  | peerAgeTimeout dt station => exact .inl (.of_event (fun _ => rfl) (.guarded (.plain fun h _ hs => h.setPeerState _ _ hs) _))
  | agreementToleranceReached dt station =>
    exact .inl (.of_event (fun _ => rfl) (.guarded (.plain fun h _ hs => by exact h.raiseCond (h.mapPeer hs)) _))
  | infoConditionExpiry dt cond => exact .inl (.of_event (fun _ => rfl) (.guarded (.plain fun h _ hs => h.clearCond hs) _))
  | indicationDue dt => exact .inl (.of_event (fun _ => rfl) (.guarded (.plain fun h s hs => by exact h.parts (s := s) rfl rfl rfl rfl rfl hs) _))
  | noticeSpacingEnd dt => exact .inl (.of_event (fun _ => rfl) (.plain_of_kept transmit_kept (by decide)))
  | signallerFrameEnd dt =>
    refine .inl (.of_event (fun _ => rfl) (.plain fun h s hs => ?_))
    unfold sigEnd
    repeat' split
    all_goals first | exact hs | exact h.parts (s := s) rfl rfl rfl rfl rfl hs
  | ack dt bytes =>
    refine .inl (.of_event (fun _ => rfl) (.plain fun h s hs => ?_))
    repeat' split
    all_goals first | exact hs | exact h.parts (s := s) rfl rfl rfl rfl rfl hs
  | query dt bytes =>
    refine .inl (.of_event (fun _ => rfl) (.plain fun h s hs => ?_))
    repeat' split
    all_goals first | exact hs | exact h.parts (s := s) rfl rfl rfl rfl rfl hs
  | signallerByteTimeout dt bytes =>
    refine .inl (.of_event (fun _ => rfl) (.plain fun h s hs => ?_))
    split <;> first | exact hs | exact h.parts (s := s) rfl rfl rfl rfl rfl hs
  | signallerFrameMalformed dt bytes =>
    refine .inl (.of_event (fun _ => rfl) (.plain fun h s hs => ?_))
    split <;> first | exact hs | exact h.parts (s := s) rfl rfl rfl rfl rfl hs
  | showPeers dt => exact .inl (.of_event (fun _ => rfl) .answered)
  | showSections dt => exact .inl (.of_event (fun _ => rfl) .answered)
  | showDetection dt => exact .inl (.of_event (fun _ => rfl) (.takeCommand fun h s hs => by exact h.parts (s := s) rfl rfl rfl rfl rfl hs))
  | showNotices dt => exact .inl (.of_event (fun _ => rfl) .answered)
  | showFirstFault dt => exact .inl (.of_event (fun _ => rfl) .answered)
  | readLatches dt => exact .inl (.of_event (fun _ => rfl) (.takeCommand fun h s hs => by exact h.parts (s := s) rfl rfl rfl rfl rfl hs))
  | readMismatches dt => exact .inl (.of_event (fun _ => rfl) (.takeCommand fun h s hs => by exact h.parts (s := s) rfl rfl rfl rfl rfl hs))
  | calibrate dt dp => exact .inl (.of_event (fun _ => rfl) (.takeCommand fun h _ hs => h.calibrateAct _ hs))
  | resetSection dt sec kind => exact .inl (.of_event (fun _ => rfl) (.takeCommand fun h _ hs => h.resetAct _ _ hs))
  | clearFirstFault dt => exact .inl (.of_event (fun _ => rfl) (.takeCommand fun h s hs => by exact h.parts (s := s) rfl rfl rfl rfl rfl hs))
  | restart dt => exact .inl (.of_event (fun _ => rfl) .answered)
  | unknownCommand dt bytes => exact .inl (.of_event (fun _ => rfl) (.guarded .answered _))
  | commandWhileBusy dt bytes => exact .inl (.of_event (fun _ => rfl) (.guarded (.plain_of_kept busyPort_kept (by decide)) _))
  | commandTimeout dt bytes =>
    refine .inl (.of_event (fun _ => rfl) (.plain fun h s hs => ?_))
    split <;> first | exact hs | exact h.parts (s := s) rfl rfl rfl rfl rfl hs

end Sys2Proof.Machine
end

section
/-! ## Every step keeps the laws of the phase and of the sequencer's link -/

namespace Sys2Proof.Machine

/-! ### A STATUS taken, whose work handles signals of its own (R94, R106) -/

section

variable {I : State → Prop} (h : TableStable I)
  (hd : ∀ {s : State} {sigs : List Sig}, Sig.enteredJoined ∉ sigs → I s → I (drain drainFuel sigs s))
include h hd

theorem TableStable.liveEntry {s : State} (a : Accepted) (b : StatusBody) (p : Peer) (hs : I s) : I (liveEntry a b p s) := by
  unfold Machine.liveEntry
  extract_lets s1
  have h1 : I s1 := h.setPeerState _ _ (h.mapPeer hs)
  split
  · exact h1
  · exact hd (by decide) h1

theorem TableStable.enterStatus {s : State} (a : Accepted) (b : StatusBody) (p : Peer) (hs : I s) : I (enterStatus a b p s) := by
  unfold Machine.enterStatus
  extract_lets s1
  have handed : I (statusHandedOn a b p s) := hd (by decide) (h.takeReports _ _ _ _ (h.liveEntry hd a b p hs))
  have h1 : I s1 := h.kept (noticeSync_kept _) (by decide) (h.kept (statusMeasure_kept _ _ _ _) (by decide) handed)
  split
  · exact h.kept (compareStatus_kept _ _ _ _) (by decide) h1
  · exact h1

theorem TableStable.takeStatus {s : State} (a : Accepted) (b : StatusBody) (hs : I s) : I (takeStatus a b s).1 := by
  unfold Machine.takeStatus
  split
  · exact hs
  · extract_lets s1
    have h1 : I s1 := by
      unfold s1
      split
      · exact h.enterStatus hd a b _ hs
      · exact h.setPeerState _ _ (h.mapPeer hs)
    exact h.testCompletion (h.setVerdict _ _ h1)

end

/-! ### Predicates that work on the tables and the handling of signals keep -/

/-- Before JOINED the phase is STARTING (R105). -/
def StartsUnjoined (s : State) : Prop := s.join.state ≠ .joined → s.phase.phase = .starting

/-- The image in force is another state's, and so is the join state of a station that was not joining. -/
def SameImage (s t : State) : Prop := t.cfg = s.cfg ∧ (¬Joining s → t.join.state = s.join.state)

theorem startsUnjoined_tables : TableStable StartsUnjoined where
  still h hj hs := fun hne => by
    rw [h.phase]
    refine hs ?_
    rcases hj with hj | hj
    · rcases hj with hj | hj <;> rw [hj] <;> decide
    · rw [← hj.1]
      exact hne
  maps {s id f} _ hs := fun hne => by
    obtain ⟨l, hl⟩ := mapSect_phaseUnit id f s
    rw [hl]
    exact hs (by rw [← mapSect_kept id f s .join (by decide)]; exact hne)

theorem startsUnjoined_drain {s : State} {sigs : List Sig} (hsigs : Sig.enteredJoined ∉ sigs) (hs : StartsUnjoined s) :
    StartsUnjoined (drain drainFuel sigs s) := fun hne =>
  drain_starting (hs (by rw [← drain_kept drainFuel sigs s .join (by decide)]; exact hne)) hsigs _

theorem linked_tables : TableStable Linked where
  still h _ hs := hs.congr h.cfg h.phase h.deferred (fun ha => by rw [← h.seq]; exact ha) (by rw [h.seq])
  maps {s id f} _ hs := by
    obtain ⟨l, hl⟩ := mapSect_phaseUnit id f s
    exact hs.of_kept (mapSect_kept id f s) (by decide) (by rw [hl]) (by rw [hl])

theorem sameImage_tables (s : State) : TableStable (SameImage s) where
  still {u v} h hj hu := by
    refine ⟨h.cfg.trans hu.1, fun hn => ?_⟩
    have hjoin := hu.2 hn
    rcases hj with hj | hj
    · rw [Joining, hjoin] at hj
      exact absurd hj hn
    · exact hj.1.trans hjoin
  maps {u id f} _ hu := by
    have hk := mapSect_kept id f u
    refine ⟨(hk .cfg (by decide)).trans hu.1, fun hn => ?_⟩
    rw [hk .join (by decide)]
    exact hu.2 hn

theorem sameImage_drain {s u : State} {sigs : List Sig} (hu : SameImage s u) : SameImage s (drain drainFuel sigs u) := by
  have hk := drain_kept drainFuel sigs u
  refine ⟨(hk .cfg (by decide)).trans hu.1, fun hn => ?_⟩
  rw [hk .join (by decide)]
  exact hu.2 hn

/-! ### The laws at the end of an event -/

section

variable {dt : Nat} {s : State} {f : State → Work}

theorem SeqLaw.linked (h : SeqLaw s) : Linked (advance dt s) := h.2

/-- The lists of the image in force can be walked after work that changes neither it nor the join state of a station that is not joining. -/
theorem SameImage.traced {t : State} (h : SameImage s t) (hl : SeqLaw s) (h1 : t.join.state ≠ .loading) (h2 : t.join.state ≠ .lockedOut)
    (l : ListName) : (traceList t.cfg.steps 24 [] (headOf t.cfg l)).isSome = true := by
  rw [h.1]
  by_cases hj : Joining s
  · exact hl.1 (by rcases hj with hj | hj <;> rw [hj] <;> decide) (by rcases hj with hj | hj <;> rw [hj] <;> decide) l
  · rw [h.2 hj] at h1 h2
    exact hl.1 h1 h2 l

/-- In STARTING no law binds an open crossing. -/
theorem OpenFit.of_starting (h : s.phase.phase = .starting) : OpenFit s := fun ho => by
  rcases ho with ho | ho <;> rw [h] at ho <;> cases ho

theorem TableWork.lawful (hf : TableWork f) (hs : SectionLaw s) (hp : PhaseLaw s) : LawfulWork s (f s) := by
  have hstart : StartsUnjoined (f s).1 := hf.stable startsUnjoined_tables s fun hne => by_contra fun h => hne (hp.1 h)
  have htab : Tabled s (f s).1 := hf.stable (tabled_stable s) s (Tabled.refl s)
  obtain ⟨hjoined, hquiet⟩ := hf.signals s
  refine ⟨fun hne => ⟨hstart hne, fun hm => hne (hjoined hm)⟩, ?_⟩
  rcases hquiet with hnil | hj | ⟨hsect, hpeer⟩
  · cases hw : phaseInputsChanged s (f s).1 with
    | true => exact .inr ⟨hnil, rfl⟩
    | false => exact .inl (htab.openFit hs hp hw)
  · have hst : s.phase.phase = .starting := by_contra fun h => by
      have hjs := hp.1 h
      rcases hj with hj | hj <;> rw [hjs] at hj <;> cases hj
    exact .inl (OpenFit.of_starting (htab.phase.trans hst))
  · exact .inl (htab.openFit hs hp (phaseInputsChanged_same hsect hpeer))

/-- The event of a command on the tables keeps the laws. -/
theorem TableWork.event_laws (hf : TableWork f) (hpow : s.powered = true) (hs : SectionLaw s) (hp : PhaseLaw s) :
    PhaseLaw (event dt s f) ∧ (SeqLaw s → SeqLaw (event dt s f)) := by
  have hpa : PhaseLaw (advance dt s) := ⟨hp.1, fun ho => ⟨(hp.2 ho).1, (failureDemand_advance dt s).trans (hp.2 ho).2⟩⟩
  refine ⟨LawfulWork.phaseLaw hpow (hf.lawful (hs.of_sections rfl) hpa), fun hl => ?_⟩
  have himage : SameImage s (f (advance dt s)).1 := hf.stable (sameImage_tables s) _ ⟨rfl, fun _ => rfl⟩
  exact seqLaw_event hpow (hf.stable linked_tables _ hl.linked) (himage.traced hl)

end

end Sys2Proof.Machine
end

section
/-! ## The laws through the other commands -/

namespace Sys2Proof.Machine

section

variable {dt : Nat} {s : State} {f : State → Work}

theorem PhaseLaw.advance (hp : PhaseLaw s) (dt : Nat) : PhaseLaw (advance dt s) :=
  ⟨hp.1, fun ho => ⟨(hp.2 ho).1, (failureDemand_advance dt s).trans (hp.2 ho).2⟩⟩

theorem SeqLaw.advance (hl : SeqLaw s) (dt : Nat) : SeqLaw (advance dt s) := hl

theorem PhaseLaw.startsUnjoined (hp : PhaseLaw s) : StartsUnjoined s := fun hne => by_contra fun h => hne (hp.1 h)

theorem PhaseLaw.starting (hp : PhaseLaw s) (hj : s.join.state ≠ .joined) : s.phase.phase = .starting := hp.startsUnjoined hj

/-! ### The timers of the sequencer (R129, R131) -/

/-- The parts that a walk touches. -/
def walkParts : List Part := [.seq, .lights, .barrier, .conds, .notices]

/-- Work of the sequencer keeps the laws. -/
theorem walk_laws (hk : ∀ s, KeptBut walkParts s (f s).1) (hu : ∀ s, Unjoined (f s)) (hl : ∀ s, Linked s → Linked (f s).1) (hpow : s.powered = true)
    (hp : PhaseLaw s) : PhaseLaw (event dt s f) ∧ (SeqLaw s → SeqLaw (event dt s f)) := by
  have hka := hk (Machine.advance dt s)
  have hjoin : (f (Machine.advance dt s)).1.join = s.join := hka .join (by decide)
  have hphase : (f (Machine.advance dt s)).1.phase = s.phase := hka .phase (by decide)
  have hcfg : (f (Machine.advance dt s)).1.cfg = s.cfg := hka .cfg (by decide)
  refine ⟨LawfulWork.phaseLaw hpow ⟨fun hne => ⟨?_, hu _⟩, .inl ?_⟩, fun hs => seqLaw_event hpow (hl _ hs.linked) ?_⟩
  · rw [hphase]
    exact hp.starting (by rw [← hjoin]; exact hne)
  · exact OpenFit.of_kept hka (by decide) (congrArg _ hphase) (hp.advance dt).2
  · rw [hjoin, hcfg]
    exact hs.1

theorem guarded_walk_laws (c : State → Bool) (hk : ∀ s, KeptBut walkParts s (f s).1) (hu : ∀ s, Unjoined (f s)) (hl : ∀ s, Linked s → Linked (f s).1)
    (hpow : s.powered = true) (hp : PhaseLaw s) : PhaseLaw (event dt s (guarded c f)) ∧ (SeqLaw s → SeqLaw (event dt s (guarded c f))) := by
  refine walk_laws (fun s => ?_) (fun s => ?_) (fun s hs => ?_) hpow hp <;> unfold guarded <;> split
  · exact hk s
  · exact KeptBut.refl _ s
  · exact hu s
  · exact Unjoined.nil s
  · exact hl s hs
  · exact hs

theorem endRun_linked (how : EndHow) (hs : Linked s) : Linked (endRun how s).1 := by
  have hk := endRun_kept how s
  refine hs.congr (hk .cfg (by decide)) (congrArg _ (hk .phase (by decide))) (congrArg _ (hk .phase (by decide))) (fun ha => ?_) ?_
  · rw [endRun_seq, SeqUnit.ended_active] at ha
    cases ha
  · rw [endRun_seq]
    rfl

/-! ### The end of LOADING (R190, R192) -/

/-- The lists of an image that passes can be walked to their ends (R126, R190). -/
theorem traced_of_passed {b c : Bool} {m : List Host.Cell} {im : Image} {d : Half} {clamped : Bool} (h : loadCheck b c m = .passed im d clamped)
    (l : ListName) : (traceList im.steps 24 [] (headOf im l)).isSome = true := by
  unfold loadCheck at h
  split at h
  · cases h
  next r _ =>
    dsimp only at h
    split at h
    · cases h
    split at h
    · cases h
    next herr =>
      cases h
      simp only [Bool.or_eq_true, not_or, stepsError] at herr
      obtain ⟨-, ⟨⟨-, hclose⟩, hopen⟩, hfailed⟩ := herr
      cases l with
      | close => exact Option.isSome_iff_ne_none.2 fun hn => hclose (by rw [show headOf r.settle .close = r.settle.closeHead from rfl] at hn; simp [hn])
      | opn => exact Option.isSome_iff_ne_none.2 fun hn => hopen (by rw [show headOf r.settle .opn = r.settle.openHead from rfl] at hn; simp [hn])
      | failed =>
        refine Option.isSome_iff_ne_none.2 fun hn => hfailed ?_
        rw [show headOf r.settle .failed = r.settle.failedHead from rfl] at hn
        simp [failedListEnds, hn]

/-- What the end of LOADING leaves to the laws of the phase and of the sequencer: the phase unit, and an image that has passed where the station
goes on to join. -/
theorem loaded_phase (o : LoadOutcome) (s : State) : (loaded o s).phase = s.phase := by
  cases o with
  | passed im d c => exact loadPassed_built im d c s .phase (by decide)
  | declared im d c =>
    show (request .hail (raiseCond _ (beginService im d c _))).phase = s.phase
    rw [request_kept _ _ .phase (by decide), raiseCond_phase, beginService_kept _ _ _ _ .phase (by decide)]
    rfl
  | blind own =>
    show (raiseCond _ (putJoin _ s)).phase = s.phase
    rw [raiseCond_phase]
    rfl

theorem loaded_lockedOut {o : LoadOutcome} (s : State) (ho : ∀ im d c, o ≠ .passed im d c) : (loaded o s).join.state = .lockedOut := by
  cases o with
  | passed im d c => exact absurd rfl (ho im d c)
  | declared im d c =>
    show (request .hail (raiseCond _ (beginService im d c _))).join.state = .lockedOut
    rw [request_kept _ _ .join (by decide), raiseCond_join, beginService_kept _ _ _ _ .join (by decide)]
    rfl
  | blind own =>
    show (raiseCond _ (putJoin _ s)).join.state = .lockedOut
    rw [raiseCond_join]
    rfl

theorem countRestart_phase (answers : Bool) (readBack : Option Byte) (s : State) : (countRestart answers readBack s).phase = s.phase := by
  unfold countRestart
  split <;> rfl

/-- A command whose guard does not hold keeps the laws. -/
theorem unmet_laws {c : State → Bool} (hc : c (Machine.advance dt s) = false) (hpow : s.powered = true) (hp : PhaseLaw s) :
    PhaseLaw (event dt s (guarded c f)) ∧ (SeqLaw s → SeqLaw (event dt s (guarded c f))) := by
  have he : event dt s (guarded c f) = event dt s (plain fun s => s) := by rw [event_eq hpow, event_eq hpow, guarded_unmet hc, plain_apply]
  rw [he]
  exact walk_laws (fun s => KeptBut.refl _ s) (fun s => Unjoined.nil s) (fun s hs => hs) hpow hp

/-- Work that leaves the phase unit of a station before JOINED as it was, without signals, keeps the laws with an image whose lists can be walked. -/
theorem starting_laws (hf : (f (Machine.advance dt s)).2 = []) (hphase : (f (Machine.advance dt s)).1.phase = s.phase) (hpow : s.powered = true)
    (hst : s.phase.phase = .starting) (ht : (f (Machine.advance dt s)).1.join.state ≠ .loading → (f (Machine.advance dt s)).1.join.state ≠ .lockedOut →
      ∀ l : ListName, (traceList (f (Machine.advance dt s)).1.cfg.steps 24 [] (headOf (f (Machine.advance dt s)).1.cfg l)).isSome = true) :
    PhaseLaw (event dt s f) ∧ SeqLaw (event dt s f) := by
  have hstart : (f (Machine.advance dt s)).1.phase.phase = .starting := by rw [hphase, hst]
  refine ⟨LawfulWork.phaseLaw hpow ⟨fun _ => ⟨hstart, by rw [Unjoined, hf]; exact List.not_mem_nil⟩, .inl (OpenFit.of_starting hstart)⟩,
    seqLaw_event hpow (Linked.of_shut fun ho => ?_) ht⟩
  rcases ho with ho | ho <;> rw [hstart] at ho <;> cases ho

theorem loadingEnd_laws (dt : Nat) (answers : Bool) (readBack : Option Byte) (hpow : s.powered = true) (hp : PhaseLaw s) :
    ∃ t, exec (.loadingEnd dt answers readBack) s = .next t ∧ PhaseLaw t ∧ (SeqLaw s → SeqLaw t) := by
  refine ⟨_, rfl, ?_⟩
  by_cases hj : s.join.state = .loading
  · have hwork : guarded (fun s => s.join.state == .loading)
        (plain fun s => loaded (loadCheck answers (readBackOk readBack s) s.mem) (countRestart answers readBack s)) (Machine.advance dt s)
        = (loaded (loadCheck answers (readBackOk readBack s) s.mem) (countRestart answers readBack (Machine.advance dt s)), []) :=
      guarded_apply (by rw [advance_join, hj]; rfl)
    have hlaws := starting_laws (f := guarded (fun s => s.join.state == .loading)
        (plain fun s => loaded (loadCheck answers (readBackOk readBack s) s.mem) (countRestart answers readBack s))) (dt := dt)
      (by rw [hwork]) (by rw [hwork, loaded_phase, countRestart_phase, advance_phase]) hpow (hp.starting (by rw [hj]; decide)) ?_
    · exact ⟨hlaws.1, fun _ => hlaws.2⟩
    · rw [hwork]
      intro _ hlock l
      cases ho : loadCheck answers (readBackOk readBack s) s.mem with
      | passed im d c =>
        rw [loaded, loadPassed_built im d c _ .cfg (by decide)]
        exact traced_of_passed ho l
      | declared im d c =>
        rw [ho] at hlock
        exact absurd (loaded_lockedOut _ fun _ _ _ he => by cases he) hlock
      | blind own =>
        rw [ho] at hlock
        exact absurd (loaded_lockedOut _ fun _ _ _ he => by cases he) hlock
  · exact unmet_laws (by rw [advance_join]; simpa using hj) hpow hp

/-! ### A STATUS taken (R94, R106) -/

/-- The compare leaves the peers' states, so it leaves an open crossing over clear islands (R100). -/
theorem openFit_compareStatus (n : Nat) (t : Time) (b : StatusBody) (hs : OpenFit s) : OpenFit (compareStatus n t b s) := by
  have hk := compareStatus_kept n t b s
  have hphase : (compareStatus n t b s).phase = s.phase := hk .phase (by decide)
  have hsect : (compareStatus n t b s).sections = s.sections := hk .sections (by decide)
  have hstates (f : Peer → Peer) (hf : ∀ p, ((f p).station, (f p).state) = (p.station, p.state)) :
      (mapPeer n f s).peers.map (fun p => (p.station, p.state)) = s.peers.map fun p => (p.station, p.state) := by
    rw [mapPeer_peers, List.map_map]
    refine List.map_congr_left fun p _ => ?_
    show ((if p.station = n then f p else p).station, (if p.station = n then f p else p).state) = _
    split
    · exact hf p
    · rfl
  have hpeers : (compareStatus n t b s).peers.map (fun p => (p.station, p.state)) = s.peers.map fun p => (p.station, p.state) := by
    unfold compareStatus
    extract_lets dp ds dh
    split
    · exact hstates _ fun _ => rfl
    · rw [clearCond_peers]
      exact hstates _ fun _ => rfl
  intro ho
  rw [OpenPhase, hphase] at ho
  obtain ⟨hislands, hfail⟩ := hs ho
  exact ⟨by rw [islandsClear, hsect]; exact hislands, (failureDemand_congr (hk .join (by decide)) hpeers (by rw [hsect])).trans hfail⟩

/-- The evaluation of the reports leaves an open crossing over clear islands, and nothing after it moves a section or a peer (R94, R106). -/
theorem openFit_enterStatus (a : Accepted) (b : StatusBody) (p : Peer) (s : State) : OpenFit (enterStatus a b p s) := by
  unfold enterStatus
  extract_lets s1
  have handed : OpenFit (statusHandedOn a b p s) := openFit_settled 1023 [.judge] _
  have hk := (statusMeasure_kept a b s.flash.leader (statusHandedOn a b p s)).mono (m := [.flash, .notices]) (by decide)
    |>.trans ((noticeSync_kept (statusMeasure a b s.flash.leader (statusHandedOn a b p s))).mono (by decide))
  have h1 : OpenFit s1 := handed.of_kept hk (by decide) (congrArg _ (hk .phase (by decide)))
  split
  · exact openFit_compareStatus _ _ _ h1
  · exact h1

/-- In JOINED a verdict and the test of completion change nothing more. -/
theorem testCompletion_setVerdict {n : Nat} {v : Verdict} (hj : s.join.state = .joined) : testCompletion (setVerdict n v s) = (s, []) := by
  have hv : setVerdict n v s = s := if_neg (by simp [hj])
  rw [hv]
  exact if_neg (by simp [hj])

theorem startingPhase_tables : TableStable fun s => s.phase.phase = .starting where
  still h _ hs := h.phase.trans hs
  maps {s id f} _ hs := by
    obtain ⟨l, hl⟩ := mapSect_phaseUnit id f s
    rw [hl]
    exact hs

theorem takeStatus_joined {a : Accepted} {b : StatusBody} (hm : Sig.enteredJoined ∈ (takeStatus a b s).2) : (takeStatus a b s).1.join.state = .joined := by
  unfold takeStatus at hm ⊢
  split at hm
  · exact absurd hm List.not_mem_nil
  · exact (testCompletion_signals id).joined hm

/-- In JOINED a STATUS taken is its entry, or the entry's departure for MISMATCHED, and gives no signal (R90, R94, R97). -/
theorem takeStatus_in_joined {a : Accepted} {b : StatusBody} {p : Peer} (hj : s.join.state = .joined) (hat : peerAt s a.source = some p) :
    takeStatus a b s = (if b.digest = s.digest then enterStatus a b p s
      else setPeerState a.source .mismatched (mapPeer a.source (fun q => { q with lastHeard := some a.endMs }) s), []) := by
  unfold takeStatus
  rw [hat]
  dsimp only
  split
  · exact testCompletion_setVerdict (by rw [enterStatus_kept a b p s .join (by decide)]; exact hj)
  · exact testCompletion_setVerdict (by rw [setPeerState_kept _ _ _ .join (by decide)]; exact hj)

theorem takeStatus_lawful (a : Accepted) (b : StatusBody) (hs : SectionLaw s) (hp : PhaseLaw s) : LawfulWork s (takeStatus a b (dropAccepted s)) := by
  have hstart : StartsUnjoined (takeStatus a b (dropAccepted s)).1 :=
    startsUnjoined_tables.takeStatus startsUnjoined_drain a b (startsUnjoined_tables.dropAccepted hp.startsUnjoined)
  refine ⟨fun hne => ⟨hstart hne, fun hm => hne (takeStatus_joined hm)⟩, ?_⟩
  by_cases hj : s.join.state = .joined
  · cases hat : peerAt (dropAccepted s) a.source with
    | none =>
      have hnone : takeStatus a b (dropAccepted s) = (dropAccepted s, []) := by
        unfold takeStatus
        rw [hat]
      rw [hnone]
      exact .inl hp.2
    | some p =>
      rw [takeStatus_in_joined (s := dropAccepted s) hj hat]
      split
      · exact .inl (openFit_enterStatus _ _ _ _)
      · have ht := tabled_stable s
        have htab := ht.setPeerState a.source .mismatched (ht.mapPeer (n := a.source) (f := fun q => { q with lastHeard := some a.endMs })
          (ht.dropAccepted (Tabled.refl s)))
        cases hw : phaseInputsChanged s (setPeerState a.source .mismatched
            (mapPeer a.source (fun q => { q with lastHeard := some a.endMs }) (dropAccepted s))) with
        | true => exact .inr ⟨rfl, rfl⟩
        | false => exact .inl (htab.openFit hs hp hw)
  · have hphase : (takeStatus a b (dropAccepted s)).1.phase.phase = .starting :=
      startingPhase_tables.takeStatus (fun hsigs h => drain_starting h hsigs _) a b (startingPhase_tables.dropAccepted (hp.starting hj))
    exact .inl (OpenFit.of_starting hphase)

/-- The own work of STATUS_TAKEN. -/
def statusWork (s : State) : Work :=
  match s.line.accepted with
  | [] => (s, [])
  | a :: _ => match a.body with
    | .status b => takeStatus a b (dropAccepted s)
    | .strike _ | .join _ | .service _ => (s, [])

theorem exec_statusTaken (dt : Nat) (s : State) : exec (.statusTaken dt) s = .next (event dt s statusWork) := rfl

theorem statusWork_cases (s : State) : statusWork s = (s, []) ∨ ∃ a b, statusWork s = takeStatus a b (dropAccepted s) := by
  unfold statusWork
  split
  · exact .inl rfl
  split
  · exact .inr ⟨_, _, rfl⟩
  iterate 3 exact .inl rfl

theorem statusWork_stable {I : State → Prop} (h : TableStable I)
    (hd : ∀ {s : State} {sigs : List Sig}, Sig.enteredJoined ∉ sigs → I s → I (drain drainFuel sigs s)) (hs : I s) : I (statusWork s).1 := by
  rcases statusWork_cases s with he | ⟨a, b, he⟩ <;> rw [he]
  · exact hs
  · exact h.takeStatus hd a b (h.dropAccepted hs)

theorem statusTaken_laws (dt : Nat) (hpow : s.powered = true) (hs : SectionLaw s) (hp : PhaseLaw s) :
    ∃ t, exec (.statusTaken dt) s = .next t ∧ PhaseLaw t ∧ (SeqLaw s → SeqLaw t) := by
  refine ⟨_, exec_statusTaken dt s, LawfulWork.phaseLaw hpow ?_, fun hl => seqLaw_event hpow ?_ ?_⟩
  · rcases statusWork_cases (Machine.advance dt s) with he | ⟨a, b, he⟩ <;> rw [he]
    · exact ⟨fun hne => ⟨hp.starting hne, Unjoined.nil _⟩, .inl (hp.advance dt).2⟩
    · exact takeStatus_lawful a b (hs.of_sections rfl) (hp.advance dt)
  · exact statusWork_stable linked_tables (fun _ h => h.drain) hl.linked
  · have himage : SameImage s (statusWork (Machine.advance dt s)).1 :=
      statusWork_stable (sameImage_tables s) (fun _ h => sameImage_drain h) ⟨rfl, fun _ => rfl⟩
    exact himage.traced hl

end

/-! ### Every command -/

/-- A command that keeps the laws of the phase and of the sequencer's link. -/
def KeepsPhase (c : Instr) : Prop :=
  ∀ s, SectionLaw s → PhaseLaw s → ∃ t, exec c s = .next t ∧ PhaseLaw t ∧ (SeqLaw s → SeqLaw t)

/-- The station after a reset: STARTING, before the image is read, the sequencer idle (R105, R194). -/
theorem reset_laws {t : State} (hp : t.phase = PhaseUnit.reset) (hj : t.join = JoinUnit.reset) : PhaseLaw t ∧ SeqLaw t := by
  refine ⟨⟨fun h => absurd (by rw [hp]; rfl) h, fun ho => ?_⟩, fun h => absurd (by rw [hj]; rfl) h, fun _ ho => ?_⟩ <;>
  · rw [hp] at ho
    rcases ho with ho | ho <;> cases ho

/-- While the power-on reset lasts, only time passes (R194). -/
theorem unpowered_laws {dt : Nat} {s : State} {f : State → Work} (hpow : s.powered = false) (hp : PhaseLaw s) :
    PhaseLaw (event dt s f) ∧ (SeqLaw s → SeqLaw (event dt s f)) := by
  rw [event_unpowered hpow]
  exact ⟨hp.advance dt, fun hl => hl.advance dt⟩

theorem replyEnd_onTables : TableWork (plain replyEnd) := .plain fun h s hs => by
  unfold replyEnd
  repeat' split
  all_goals first | exact hs | exact h.parts (s := s) rfl rfl rfl rfl rfl hs

theorem keepsPhase (c : Instr) : KeepsPhase c := by
  intro s hs hp
  rcases onTables_or_offTables c with ⟨dt, f, hex, hf⟩ | hoff
  · refine ⟨_, hex s, ?_⟩
    cases hpow : s.powered with
    | true => exact hf.event_laws hpow hs hp
    | false => exact unpowered_laws hpow hp
  · cases hoff with
    | powerOnReset dt => exact ⟨_, rfl, (reset_laws rfl rfl).1, fun _ => (reset_laws rfl rfl).2⟩
    | supplyRestored dt => exact ⟨_, rfl, hp.advance dt, fun hl => hl⟩
    | maintainerReplyEnd dt =>
      refine ⟨_, rfl, ?_⟩
      split
      · exact ⟨(reset_laws rfl rfl).1, fun _ => (reset_laws rfl rfl).2⟩
      · cases hpow : s.powered with
        | true => exact replyEnd_onTables.event_laws hpow hs hp
        | false => exact unpowered_laws hpow hp
    | loadingEnd dt answers readBack =>
      cases hpow : s.powered with
      | true => exact loadingEnd_laws dt answers readBack hpow hp
      | false => exact ⟨_, rfl, unpowered_laws hpow hp⟩
    | dwellEnd dt =>
      refine ⟨_, rfl, ?_⟩
      cases hpow : s.powered with
      | true =>
        exact guarded_walk_laws _ (judgeStep_kept _) (judgeStep_unjoined _) (fun _ h => h.judgeStep _) hpow hp
      | false => exact unpowered_laws hpow hp
    | waitLimitExpiry dt =>
      refine ⟨_, rfl, ?_⟩
      cases hpow : s.powered with
      | true =>
        exact guarded_walk_laws _ (fun w => (endRun_kept _ w).mono (by decide)) (endRun_unjoined _) (fun _ h => endRun_linked _ h) hpow hp
      | false => exact unpowered_laws hpow hp
    | statusTaken dt =>
      cases hpow : s.powered with
      | true => exact statusTaken_laws dt hpow hs hp
      | false => exact ⟨_, rfl, unpowered_laws hpow hp⟩

/-- Settles O8: the work of every command leaves an open crossing over clear islands or its evaluation to come, and evaluations and walks keep both
laws. -/
theorem everyStepKeepsThePhaseLaw : Obligations.EveryStepKeepsThePhaseLaw := by
  intro s t hs hp hstep
  unfold step at hstep
  split at hstep
  · cases hstep
    exact ⟨hp, id⟩
  next c rest _ =>
    obtain ⟨u, hu, hlaws⟩ := keepsPhase c { s with pending := rest } (hs.of_sections rfl) hp
    cases hu.symm.trans hstep
    exact hlaws

end Sys2Proof.Machine
end

section
/-! ## A declared lockout holds the state of every section (R92, R190) -/

namespace Sys2Proof.Machine

/-! ### The states of the records -/

/-- The records of a table without a repeated id, with the states that they stand in. -/
def StatesAre (l : List SectState) (s : State) : Prop := (s.sections.map (·.id)).Nodup ∧ s.sections.map (·.state) = l

theorem StatesAre.congr {l : List SectState} {s t : State} (h : t.sections = s.sections) (hs : StatesAre l s) : StatesAre l t := by
  rw [StatesAre, h]
  exact hs

/-- A change of one record that leaves its state leaves the states of the table. -/
theorem StatesAre.mapSect {l : List SectState} {s : State} {id : Nat} {f : Sect → Sect} (hs : StatesAre l s) (hf : ∀ r : Sect, r.SamePlace (f r))
    (hst : ∀ r, sectAt s id = some r → (if declaredLockout s then r.stay (f r) else f r).state = r.state) : StatesAre l (mapSect id f s) := by
  obtain ⟨hn, hl⟩ := hs
  refine ⟨by rw [mapSect_ids hf]; exact hn, ?_⟩
  cases hat : sectAt s id with
  | none =>
    rw [mapSect_of_none hat]
    exact hl
  | some r =>
    have hq := hst r hat
    simp only [Machine.mapSect, hat]
    generalize hqe : (if declaredLockout s then r.stay (f r) else f r) = q at hq
    have hplace : r.SamePlace q := by
      rw [← hqe]
      exact Sect.SamePlace.ite (Sect.SamePlace.stay (hf r)) (hf r)
    have hqid : q.id = id := hplace.1.trans (sectAt_id hat)
    rw [putSect_sections (by rw [hqid]; exact hat), List.map_map, ← hl]
    refine List.map_congr_left fun x hx => ?_
    show (if x.id = q.id then q else x).state = x.state
    split
    next hid => rw [List.inj_on_of_nodup_map hn hx (sectAt_mem hat) (hid.trans hplace.1), hq]
    next => rfl

/-- The handling of signals moves no section's state: a release holds a section in its state (R58, R120). -/
theorem statesAre_stable (l : List SectState) : SignalStable (StatesAre l) where
  still _ hs _ _ h := h.congr hs
  clears _ h := h.congr (clearCond_sections _ _)
  raises _ h := h.congr (raiseCond_sections _ _)
  releases _ h := by
    refine List.foldlRecOn (motive := StatesAre l) _ _ h fun w hw id _ => ?_
    have held (r : Sect) : (if declaredLockout w then r.stay r.hold else r.hold).state = r.state := by
      split
      · rw [Sect.stay, if_pos (show r.hold.state = r.state from rfl)]
        rfl
      · rfl
    exact ((hw.mapSect (f := Sect.hold) (fun r => ⟨rfl, rfl⟩) fun r _ => held r).congr (raiseCond_sections _ _) : StatesAre l _)

/-! ### In a declared lockout -/

/-- A declared lockout in which every section is UNKNOWN or RESTORING, with the states that they stand in (R190). -/
def LockedAs (l : List SectState) (s : State) : Prop := declaredLockout s = true ∧ StatesAre l s

section

variable {l : List SectState} (hl : ∀ x ∈ l, x = .unknown ∨ x = .restoring)

theorem declaredLockout_join {s : State} (h : declaredLockout s = true) : s.join.state = .lockedOut ∧ s.join.declared = true := by
  simpa [declaredLockout] using h

theorem LockedAs.congr {s t : State} (hj : t.join = s.join) (hs : t.sections = s.sections) (h : LockedAs l s) : LockedAs l t :=
  ⟨(declaredLockout_congr hj).trans h.1, h.2.congr hs⟩

include hl in
/-- Work on the tables moves no section's state in a declared lockout (R190; log 70). -/
theorem lockedAs_tables : TableStable (LockedAs l) where
  still {s t} h hj hs := by
    obtain ⟨hlock, hdecl⟩ := declaredLockout_join hs.1
    rcases hj with hj | ⟨hstate, hd⟩
    · rcases hj with hj | hj <;> rw [hlock] at hj <;> cases hj
    · exact ⟨by rw [declaredLockout, hstate, hd, hlock, hdecl]; rfl, hs.2.congr h.sections⟩
  maps {s id f} hf hs := by
    refine ⟨(declaredLockout_congr (mapSect_kept id f s .join (by decide))).trans hs.1, hs.2.mapSect hf fun r hr => ?_⟩
    have hst : r.state = .unknown ∨ r.state = .restoring := hl _ (by rw [← hs.2.2]; exact List.mem_map_of_mem (sectAt_mem hr))
    rw [hs.1, if_pos rfl]
    exact Sect.stay_state hst _

theorem lockedAs_drain {s : State} {sigs : List Sig} (hs : LockedAs l s) : LockedAs l (drain drainFuel sigs s) :=
  ⟨(declaredLockout_congr (drain_kept _ _ _ .join (by decide))).trans hs.1, (statesAre_stable l).drain hs.2⟩

/-- A declared lockout through the end of an event whose work has kept it. -/
theorem LockedAs.event {dt : Nat} {s : State} {f : State → Work} (hpow : s.powered = true) (h : LockedAs l (f (advance dt s)).1) :
    LockedAs l (event dt s f) :=
  ⟨(declaredLockout_congr (event_kept_work hpow .join (by decide))).trans h.1, (statesAre_stable l).event hpow h.2⟩

include hl in
/-- Every command but a reset keeps a declared lockout and the states of its sections. -/
theorem exec_lockedAs {c : Instr} {s : State} (hr : resets c s = false) (hs : LockedAs l s) : ∃ t, exec c s = .next t ∧ LockedAs l t := by
  have ends {dt : Nat} {f : State → Work} (hf : LockedAs l (f (advance dt s)).1) : LockedAs l (event dt s f) := by
    cases hpow : s.powered with
    | true => exact hf.event hpow
    | false =>
      rw [event_unpowered hpow]
      exact hs
  have hadv (dt : Nat) : LockedAs l (advance dt s) := hs
  have walks {f : State → Work} (hk : ∀ w, KeptBut walkParts w (f w).1) (c : State → Bool) {w : State} (hw : LockedAs l w) :
      LockedAs l (guarded c f w).1 := by
    unfold guarded
    split
    · exact hw.congr (hk w .join (by decide)) (hk w .sections (by decide))
    · exact hw
  rcases onTables_or_offTables c with ⟨dt, f, hex, hf⟩ | hoff
  · exact ⟨_, hex s, ends (hf.stable (lockedAs_tables hl) _ (hadv dt))⟩
  · cases hoff with
    | powerOnReset dt => exact absurd hr (by simp [resets])
    | supplyRestored dt => exact ⟨_, rfl, hs⟩
    | maintainerReplyEnd dt =>
      refine ⟨_, rfl, ?_⟩
      rw [if_neg (by simpa [resets] using hr)]
      exact ends (replyEnd_onTables.stable (lockedAs_tables hl) _ (hadv dt))
    | loadingEnd dt answers readBack =>
      refine ⟨_, rfl, ends ?_⟩
      rw [guarded_unmet (by rw [advance_join, (declaredLockout_join hs.1).1]; rfl)]
      exact hadv dt
    | dwellEnd dt => exact ⟨_, rfl, ends (walks (judgeStep_kept _) _ (hadv dt))⟩
    | waitLimitExpiry dt => exact ⟨_, rfl, ends (walks (fun w => (endRun_kept _ w).mono (by decide)) _ (hadv dt))⟩
    | statusTaken dt =>
      exact ⟨_, exec_statusTaken dt s, ends (statusWork_stable (lockedAs_tables hl) (fun _ h => lockedAs_drain h) (hadv dt))⟩

end

end Sys2Proof.Machine
end

section
/-! ## A frame that needs nothing of the state is under way at the end of the event that asks for it (R66, R69, R70) -/

namespace Sys2Proof.Machine

/-- A request whose fields every state fills in: every one but a STRIKE (R66). -/
def AlwaysBuilt (w : TxWhat) : Prop := ∀ s, ∃ b, buildBody s w = some b

theorem alwaysBuilt_hail : AlwaysBuilt .hail := fun _ => ⟨_, rfl⟩

theorem alwaysBuilt_status : AlwaysBuilt .status := fun _ => ⟨_, rfl⟩

theorem alwaysBuilt_answer (n : Nat) : AlwaysBuilt (.answer n) := fun _ => ⟨_, rfl⟩

/-- A frame queued on an ordered queue. -/
def Waits (w : TxWhat) (s : State) : Prop := s.line.Ordered ∧ Queued w s

theorem QueueLaw.ordered {s : State} (h : QueueLaw s) : s.line.Ordered := by
  obtain ⟨-, -, hnd, hlt, -⟩ := h
  exact ⟨hnd, hlt⟩

section

variable {w : TxWhat} {s t : State}

theorem Waits.congr (hq : t.line.queue = s.line.queue) (hn : t.line.nextOrd = s.line.nextOrd) (h : Waits w s) : Waits w t := by
  unfold Waits LineUnit.Ordered Queued
  rwa [hq, hn]

theorem Waits.of_request (ha : admits s.join w = true) (ho : s.line.Ordered) : Waits w (request w s) := request_queues ha ho

/-- A STATUS that waits is the one that a change asks for (R72). -/
theorem askStatus_queued (h : Queued .status s) : askStatus s = s := by
  obtain ⟨i, hi, hw⟩ := h
  have hq : statusQueued s = true := by
    rw [statusQueued, queuedUnder, List.find?_isSome]
    exact ⟨i, hi, by rw [hw]; rfl⟩
  exact if_neg (by simp [hq])

theorem Waits.askStatus (h : Waits w s) : Waits w (askStatus s) := by
  by_cases hs : w = .status
  · subst hs
    rw [askStatus_queued h.2]
    exact h
  · obtain ⟨ho, hq⟩ := h
    have hkey : w.key ≠ TxWhat.status.key := by
      cases w <;> first | exact absurd rfl hs | simp [TxWhat.key]
    have hqueued : Waits w (queueStatus s) := ⟨request_ordered (w := .status) (by decide) ho, Queued.request (w := .status) (by decide) hkey hq⟩
    unfold Machine.askStatus
    repeat' split
    · exact hqueued
    · exact ⟨ho, hq⟩
    · exact ⟨ho, hq⟩
    · exact ⟨ho, hq⟩

/-- What waits is still under way once an attempt has started: it waits on, or the attempt is its own. -/
theorem Waits.startAttempt (hb : AlwaysBuilt w) {i : TxItem} (hi : i ∈ s.line.queue) (h : Waits w s) : underway (startAttempt i s) w := by
  obtain ⟨ho, j, hj, hjw⟩ := h
  by_cases hij : j.ord = i.ord
  · obtain rfl : j = i := List.inj_on_of_nodup_map ho.1 hj hi hij
    obtain ⟨b, hbody⟩ := hb s
    obtain ⟨f, hf, hfw⟩ := startAttempt_flight (i := j) (s := s) (hjw ▸ hbody)
    exact .inr ⟨f, hf, hfw.trans hjw⟩
  · refine .inl ⟨j, ?_, hjw⟩
    rw [startAttempt_queue]
    exact List.mem_filter.2 ⟨hj, by simpa using hij⟩

theorem Waits.contend (hb : AlwaysBuilt w) (h : Waits w s) : underway (contend s) w := by
  unfold Machine.contend
  split
  · split
    · exact .inl h.2
    next i hi =>
      split
      · exact h.startAttempt hb (chosen_mem hi)
      · exact .inl h.2
  · exact .inl h.2

/-- What an event has queued is under way at its end, whatever attempt the end of the event starts. -/
theorem Waits.conclude (hb : AlwaysBuilt w) {s0 : State} (h : Waits w s) : underway (conclude s0 s) w := by
  unfold Machine.conclude
  extract_lets s2 s3 s4 s5
  have hk2 : KeptBut [.flash, .firstFault, .dci] s s2 :=
    (((chooseLeader_kept s).mono (by decide)).trans ((completeFirstFault_kept s0 _).mono (by decide))).trans ((judgeDcis_kept _).mono (by decide))
  have hl2 : s2.line = s.line := hk2 .line (by decide)
  have h2 : Waits w s2 := h.congr (congrArg _ hl2) (congrArg _ hl2)
  have h3 : Waits w s3 := by
    unfold s3
    split
    · exact h2.askStatus
    · exact h2
  obtain ⟨hq4, -, hn4⟩ := followQuiet_queue s3
  have h4 : Waits w s4 := h3.congr hq4 hn4
  have h5 : underway s5 w := by
    unfold s5
    split
    · obtain ⟨hq5, hf5, -⟩ := followQuiet_queue (Machine.contend s4)
      exact underway_congr hq5 hf5 (h4.contend hb)
    · exact .inl h4.2
  have hl : (transmit s5).line = s5.line := transmit_kept s5 .line (by decide)
  exact underway_congr (congrArg _ hl) (congrArg _ hl) h5

theorem Waits.event (hb : AlwaysBuilt w) {dt : Nat} {f : State → Work} (hp : s.powered = true) (h : Waits w (f (advance dt s)).1) :
    underway (event dt s f) w := by
  rw [event_eq hp]
  have hl := drain_kept drainFuel ((f (advance dt s)).2 ++ if phaseInputsChanged (advance dt s) (f (advance dt s)).1 then [.evaluate] else [])
    (f (advance dt s)).1 .line (by decide)
  exact (h.congr (congrArg _ hl) (congrArg _ hl)).conclude hb

end

end Sys2Proof.Machine
end

section
/-! ## An image that fails (R92, R159, R190) -/

namespace Sys2Proof.Machine

section

variable {im : Image} {d : Half} {clamped : Bool} {s : State}

/-- An image whose errors are outside the groups image and own entry is in force with at most two tracks (R190). -/
theorem tracks_of_declared {b c : Bool} {m : List Host.Cell} (h : loadCheck b c m = .declared im d clamped) : im.tracks ≤ 2 := by
  unfold loadCheck at h
  split at h
  · cases h
  · dsimp only at h
    split at h
    · cases h
    split at h <;> cases h
    exact min_le_right _ _

/-- Without an answer from the memory no image can be read (R190). -/
theorem loadCheck_unanswered (c : Bool) (m : List Host.Cell) : loadCheck false c m = .blind 0 := rfl

/-- The event of LOADING_END is the end of LOADING by the load check's finding and the conclusion, in STARTING (R105, R192). -/
theorem exec_loadingEnd_loading {dt : Nat} {answers : Bool} {rb : Option Byte} {o : LoadOutcome} (hp : s.powered = true) (hj : s.join.state = .loading)
    (hph : s.phase.phase = .starting) (h : loadCheck answers (readBackOk rb s) s.mem = o) :
    exec (.loadingEnd dt answers rb) s = .next (conclude (advance dt s) (loaded o (countRestart answers rb (advance dt s)))) := by
  refine congrArg Host.Outcome.next (event_starting hp ?_ ?_)
  · have hcheck : loadCheck answers (readBackOk rb (advance dt s)) (advance dt s).mem = o := h
    rw [guarded_apply (by rw [advance_join, hj]; rfl), plain_apply, hcheck]
  · rw [loaded_phase, countRestart_phase]
    exact hph

/-! ### Declared lockout (R92, R190) -/

/-- The start of service from an empty condition set leaves room in it (R174). -/
theorem length_beginService_le (h : s.conds = []) (ht : im.tracks ≤ 2) : (beginService im d clamped s).conds.length ≤ 10 := by
  unfold beginService
  extract_lets s1
  have hstart := (startOutputs_conds (s := beginProving (beginReception (build im d s))) h 0).1
  have hsect : (startOutputs (beginProving (beginReception (build im d s)))).sections.length = 3 * im.tracks := by
    rw [startOutputs_kept _ .sections (by decide)]
    show ((List.range (3 * im.tracks)).map (Sect.start im.startRestoring)).length = _
    rw [List.length_map, List.length_range]
  have hrow (l : List Sect) (w : State) :
      (l.foldl (fun w r => raiseCond (condOf .sectionUnknown r.id 0) w) w).conds.length ≤ w.conds.length + l.length := by
    induction l generalizing w with
    | nil => exact le_rfl
    | cons r rest ih =>
      refine (ih _).trans ?_
      have hone := length_raiseCond_le (condOf .sectionUnknown r.id 0) w
      simp only [List.length_cons]
      omega
  have h1 : s1.conds.length ≤ 9 := by
    have hfilter := List.length_filter_le (fun r : Sect => r.state == .unknown) (startOutputs (beginProving (beginReception (build im d s)))).sections
    have hraised := hrow ((startOutputs (beginProving (beginReception (build im d s)))).sections.filter fun r => r.state == .unknown)
      (startOutputs (beginProving (beginReception (build im d s))))
    refine hraised.trans ?_
    omega
  split
  · exact (length_raiseCond_le _ _).trans (by omega)
  · omega

/-- The join unit in declared lockout: a HAIL every 200 ms, LOWER 8 s after the entry (R92, R159). -/
def JoinUnit.declare (now : Time) (j : JoinUnit) : JoinUnit :=
  { j with state := .lockedOut, declared := true, nextHail := later now 200, lowerStart := some now }

/-- What a declared lockout begins with, its HAIL asked for last. -/
def declaredBegun (im : Image) (d : Half) (clamped : Bool) (s : State) : State :=
  let s1 := beginService im d clamped (putJoin (JoinUnit.declare s.clock.ms) s)
  raiseCond (ownCond s1 .configInvalid 0) s1

theorem loaded_declared (im : Image) (d : Half) (clamped : Bool) (s : State) :
    loaded (.declared im d clamped) s = request .hail (declaredBegun im d clamped s) := rfl

/-- The image in force, the lockout and its fallback (R92, R159). -/
theorem declaredBegun_spec (hconds : s.conds = []) (ht : im.tracks ≤ 2) :
    (declaredBegun im d clamped s).cfg = im
      ∧ (declaredBegun im d clamped s).join
        = { JoinUnit.declare s.clock.ms s.join with verdicts := (otherStations im).map fun e => (e.number, .unheard) }
      ∧ hasCond (declaredBegun im d clamped s) (condOf .configInvalid im.own 0) = true
      ∧ (isPost (declaredBegun im d clamped s) = true →
          (declaredBegun im d clamped s).lights.amber = false ∧ (declaredBegun im d clamped s).lights.red = .alternate) := by
  unfold declaredBegun
  extract_lets s1
  have hk := beginService_kept im d clamped (putJoin (JoinUnit.declare s.clock.ms) s)
  have hcfg : s1.cfg = im := hk .cfg (by decide)
  have hraise := raiseCond_kept (ownCond s1 .configInvalid 0) s1
  have hlights : (raiseCond (ownCond s1 .configInvalid 0) s1).lights = s1.lights := hraise .lights (by decide)
  refine ⟨(hraise .cfg (by decide)).trans hcfg, (hraise .join (by decide)).trans (hk .join (by decide)), ?_, fun hpost => ?_⟩
  · have hown : ownCond s1 .configInvalid 0 = condOf .configInvalid im.own 0 := by rw [ownCond, hcfg]
    have hroom : s1.conds.length ≤ 10 := length_beginService_le (s := putJoin (JoinUnit.declare s.clock.ms) s) hconds ht
    rw [hown]
    exact hasCond_raiseCond (by omega)
  · rw [hlights]
    exact (beginService_lights im d clamped _).1 ((isPost_congr (hraise .cfg (by decide))).symm.trans hpost)

end

theorem countRestart_kept (answers : Bool) (rb : Option Byte) (s : State) : KeptBut [.restartCount, .mem, .freeCount] s (countRestart answers rb s) := by
  unfold countRestart
  split <;> (intro p hp; cases p <;> first | rfl | exact ⟨rfl, rfl⟩ | exact absurd (by decide) hp)

/-- A declared lockout at the end of its LOADING_END (R92, R159, R190). -/
theorem loadingEnd_declared {dt : Nat} {answers : Bool} {rb : Option Byte} {s : State} {im : Image} {d : Half} {clamped : Bool} (hp : s.powered = true)
    (hj : s.join.state = .loading) (hph : s.phase.phase = .starting) (hconds : s.conds = []) (hblind : s.join.blind = false)
    (hcheck : loadCheck answers (readBackOk rb s) s.mem = .declared im d clamped) (hq : QueueLaw s) :
    ∃ t, exec (.loadingEnd dt answers rb) s = .next t ∧ t.join.state = .lockedOut ∧ t.join.blind = false ∧ t.join.declared = true ∧ t.cfg = im
      ∧ t.join.lowerStart = some (advance dt s).clock.ms ∧ t.join.nextHail = later (advance dt s).clock.ms 200
      ∧ hasCond t (condOf .configInvalid im.own 0) = true ∧ underway t .hail ∧ t.phase.phase = .starting
      ∧ (isPost t = true → t.lights.amber = false ∧ t.lights.red = .alternate) := by
  refine ⟨_, exec_loadingEnd_loading hp hj hph hcheck, ?_⟩
  have hcount := countRestart_kept answers rb (advance dt s)
  generalize hu : countRestart answers rb (advance dt s) = u at hcount
  have huj : u.join = s.join := hcount .join (by decide)
  have huc : u.conds = [] := (hcount .conds (by decide)).1.trans hconds
  have hclock : u.clock = (advance dt s).clock := hcount .clock (by decide)
  have huphase : u.phase = s.phase := hcount .phase (by decide)
  obtain ⟨hcfg, hjoin, hcond, hlights⟩ := declaredBegun_spec (d := d) (clamped := clamped) huc (tracks_of_declared hcheck)
  have hadmits : admits (declaredBegun im d clamped u).join .hail = true := by
    rw [hjoin]
    simp [admits, JoinUnit.declare, huj, hblind]
  have hlaw : QueueLaw (loaded (.declared im d clamped) u) := loaded_queueLaw _ (hq.of_line (hcount .line (by decide)))
  have hask := request_kept_line (w := .hail) (by decide) (declaredBegun im d clamped u)
  have hwaits : Waits .hail (loaded (.declared im d clamped) u) := ⟨hlaw.ordered, queued_request (by decide) hadmits⟩
  have hphase : (loaded (.declared im d clamped) u).phase = u.phase := loaded_phase _ u
  rw [loaded_declared] at hwaits hphase ⊢
  have hk := (hask.mono (m := .firstFault :: watchedParts) (by decide)).trans (conclude_kept (advance dt s) _)
  have htj : (conclude (advance dt s) (request .hail (declaredBegun im d clamped u))).join = _ := (hk .join (by decide)).trans hjoin
  refine ⟨?_, ?_, ?_, (hk .cfg (by decide)).trans hcfg, ?_, ?_, ?_, hwaits.conclude alwaysBuilt_hail, ?_, fun hpost => ?_⟩
  · rw [htj]
    rfl
  · rw [htj]
    show u.join.blind = false
    rw [huj, hblind]
  · rw [htj]
    rfl
  · rw [htj, ← hclock]
    rfl
  · rw [htj, ← hclock]
    rfl
  · rw [hasCond_congr (hk .conds (by decide)).1]
    exact hcond
  · rw [conclude_phase, hphase, huphase]
    exact hph
  · rw [hk .lights (by decide)]
    exact hlights ((isPost_congr (hk .cfg (by decide))).symm.trans hpost)

/-! ### Blind lockout (R190) -/

/-- Before JOINED a conclusion with nothing newly ready follows the line's quiet alone (R63, R64). -/
theorem conclude_line_unjoined {s0 s1 : State} (hj : s0.join.state ≠ .joined) (hr : readyNow s0 s1 = false) :
    ∃ q g, (conclude s0 s1).line = { s1.line with quietSince := q, gapEnd := g } := by
  unfold conclude
  extract_lets s2 s3 s4 s5
  have hl2 : s2.line = s1.line := judged_line s0 s1
  have hs3 : s3 = s2 := if_neg fun h => hj h.1
  obtain ⟨q, g, hq⟩ := followQuiet_line s3
  have hl4 : s4.line = { s1.line with quietSince := q, gapEnd := g } := by rw [← hl2, ← hs3]; exact hq
  have hr4 : readyNow s0 s4 = false := by
    rw [← hr]
    unfold readyNow
    rw [hl4]
  have hs5 : s5 = s4 := if_neg (by rw [hr4]; decide)
  refine ⟨q, g, ?_⟩
  rw [transmit_kept s5 .line (by decide), hs5, hl4]

/-- A blind lockout at the end of its LOADING_END: CONFIG_INVALID, and nothing begun (R190). -/
theorem loadingEnd_blind {dt : Nat} {answers : Bool} {rb : Option Byte} {s : State} {own : Nat} (hp : s.powered = true) (hj : s.join.state = .loading)
    (hph : s.phase.phase = .starting) (hconds : s.conds = []) (hcheck : loadCheck answers (readBackOk rb s) s.mem = .blind own) :
    ∃ t, exec (.loadingEnd dt answers rb) s = .next t
      ∧ t.join = { s.join with state := .lockedOut, blind := true } ∧ hasCond t (condOf .configInvalid own 0) = true
      ∧ t.cfg = s.cfg ∧ t.dps = s.dps ∧ t.sections = s.sections ∧ t.lights = s.lights ∧ t.barrier = s.barrier ∧ t.line.rxOn = s.line.rxOn
      ∧ t.line.queue = s.line.queue ∧ t.phase = s.phase := by
  refine ⟨_, exec_loadingEnd_loading hp hj hph hcheck, ?_⟩
  have hcount := countRestart_kept answers rb (advance dt s)
  generalize countRestart answers rb (advance dt s) = u at hcount
  have hraise := raiseCond_kept (condOf .configInvalid own 0) (putJoin (fun j => { j with state := .lockedOut, blind := true }) u)
  have hroom : u.conds.length < 31 := by rw [show u.conds = [] from (hcount .conds (by decide)).1.trans hconds]; decide
  have hjoin : (loaded (.blind own) u).join = { s.join with state := .lockedOut, blind := true } := by
    rw [show (loaded (.blind own) u).join = _ from hraise .join (by decide), putJoin_join, show u.join = s.join from hcount .join (by decide)]
  have hcond : hasCond (loaded (.blind own) u) (condOf .configInvalid own 0) = true := hasCond_raiseCond hroom
  have hbegun : KeptBut [.restartCount, .mem, .freeCount, .join, .conds, .notices] (advance dt s) (loaded (.blind own) u) :=
    ((hcount.mono (by decide)).trans ((putJoin_kept _ u).mono (by decide))).trans (hraise.mono (by decide))
  generalize loaded (.blind own) u = w at hjoin hcond hbegun
  have hk := conclude_kept (advance dt s) w
  have hall : KeptBut ([.restartCount, .mem, .freeCount, .join, .conds] ++ .firstFault :: watchedParts) (advance dt s) (conclude (advance dt s) w) :=
    (hbegun.mono (by decide)).trans (hk.mono (by decide))
  have hline : w.line = s.line := hbegun .line (by decide)
  obtain ⟨q, g, hl⟩ := conclude_line_unjoined (s0 := advance dt s) (s1 := w) (by rw [advance_join, hj]; decide)
    (readyNow_still (by rw [hline]; rfl) fun h => by rw [hline] at h; exact h)
  refine ⟨(hk .join (by decide)).trans hjoin, (hasCond_congr (hk .conds (by decide)).1 _).trans hcond, hall .cfg (by decide), hall .dps (by decide),
    hall .sections (by decide), hall .lights (by decide), hall .barrier (by decide), ?_, ?_, hall .phase (by decide)⟩
  · rw [hl, hline]
  · rw [hl, hline]

/-- Settles O59: the end of LOADING by the load check's finding, and the lockout through every command that is no reset. -/
theorem failedImageLocksTheStationOut : Obligations.FailedImageLocksTheStationOut := by
  refine ⟨fun dt answers rb s hp hj hph hconds hblind => ⟨fun im d clamped hcheck hq => ?_, fun own hcheck => ?_, fun ha => ?_⟩,
    fun c s t hex hr hlock hn hst => ?_⟩
  · exact loadingEnd_declared hp hj hph hconds hblind hcheck hq
  · exact loadingEnd_blind hp hj hph hconds hcheck
  · rw [ha]
    exact loadCheck_unanswered _ _
  · have hl : ∀ x ∈ s.sections.map (·.state), x = .unknown ∨ x = .restoring := by
      simpa using hst
    obtain ⟨u, hu, hlocked, -, hstates⟩ := exec_lockedAs (s := s) hl hr ⟨hlock, hn, rfl⟩
    cases hex.symm.trans hu
    exact ⟨hlocked, hstates⟩

end Sys2Proof.Machine
end

section
/-! ## The state of a peer's entry (R95, R97, R98) -/

namespace Sys2Proof.Machine

/-- A peer's entry after a change of its state: a departure from LIVE, or an entry into MISMATCHED, forgets the mismatch (R97, R102). -/
def Peer.moved (st : PeerState) (p : Peer) : Peer :=
  if p.state = st then p
  else if p.state = .live ∨ st = .mismatched then { p with state := st }.forgetMismatch else { p with state := st }

/-- A change of an entry's state keeps the published fields that it holds. -/
structure Peer.SamePublished (p q : Peer) : Prop where
  station : q.station = p.station
  roles : q.roles = p.roles
  lastHeard : q.lastHeard = p.lastHeard
  lastStatus : q.lastStatus = p.lastStatus
  joinShown : q.joinShown = p.joinShown
  phase : q.phase = p.phase
  dps : q.dps = p.dps
  conds : q.conds = p.conds

theorem Peer.moved_state (st : PeerState) (p : Peer) : (p.moved st).state = st := by
  unfold Peer.moved
  split
  · assumption
  · split <;> rfl

theorem Peer.moved_published (st : PeerState) (p : Peer) : p.SamePublished (p.moved st) := by
  unfold Peer.moved
  repeat' split
  all_goals exact ⟨rfl, rfl, rfl, rfl, rfl, rfl, rfl, rfl⟩

section

variable {n : Nat} {st : PeerState} {s : State} {p : Peer}

/-- The entries after one has been replaced. -/
theorem peerAt_putPeer (q : Peer) (s : State) (m : Nat) :
    peerAt (putPeer q s) m = (peerAt s m).map fun x => if x.station = q.station then q else x := by
  have hp : (fun x : Peer => x.station == m) ∘ (fun x => if x.station = q.station then q else x) = fun x => x.station == m := by
    funext x
    show ((if x.station = q.station then q else x).station == m) = (x.station == m)
    split
    next hx => rw [hx]
    next => rfl
  show (s.peers.map fun x => if x.station = q.station then q else x).find? (fun x => x.station == m) = _
  rw [List.find?_map, hp]
  rfl

/-- A change of state changes the peer table by the one entry (R95). -/
theorem setPeerState_peers (hat : peerAt s n = some p) (hne : p.state ≠ st) : (setPeerState n st s).peers = (putPeer (p.moved st) s).peers := by
  have hmoved : p.moved st = if p.state = .live ∨ st = .mismatched then { p with state := st }.forgetMismatch else { p with state := st } := if_neg hne
  rw [hmoved]
  have hc {c : CondId} {b : Prop} [Decidable b] {w : State} : KeptBut [.view, .sections, .conds, .notices, .phase] w (if b then clearCond c w else w) :=
    KeptBut.ite (fun _ => (clearCond_kept _ _).mono (by decide)) fun _ => KeptBut.refl _ _
  have hr {c : CondId} {b : Prop} [Decidable b] {w : State} : KeptBut [.view, .sections, .conds, .notices, .phase] w (if b then raiseCond c w else w) :=
    KeptBut.ite (fun _ => (raiseCond_kept _ _).mono (by decide)) fun _ => KeptBut.refl _ _
  unfold setPeerState
  split
  next hnone =>
    rw [hat] at hnone
    cases hnone
  next x hx =>
    obtain rfl : x = p := Option.some.inj (hx.symm.trans hat)
    rw [if_neg hne]
    extract_lets p1 p2 s1 s2 s3 s4 s5 s6
    have h6 : KeptBut [.view, .sections, .conds, .notices, .phase] s1 s6 := (((hc.trans hc).trans hc).trans hr).trans hr
    have hall : KeptBut [.view, .sections, .conds, .notices, .phase] s1 (if x.state = .live then loseOwner n s6 else s6) :=
      KeptBut.ite (fun _ => h6.trans ((loseOwner_kept n s6).mono (by decide))) fun _ => h6
    exact hall .peers (by decide)

/-- The entry of a station after a change of a peer's state: the entry itself moved, every other as it was. -/
theorem peerAt_setPeerState (hat : peerAt s n = some p) (m : Nat) :
    peerAt (setPeerState n st s) m = if m = n then some (p.moved st) else peerAt s m := by
  have hstation := peerAt_station hat
  by_cases hst : p.state = st
  · have hsame : setPeerState n st s = s := by
      unfold setPeerState
      rw [hat]
      exact if_pos hst
    rw [hsame]
    split
    next hm => rw [hm, hat, Peer.moved, if_pos hst]
    next => rfl
  · rw [peerAt_congr (setPeerState_peers hat hst), peerAt_putPeer, (Peer.moved_published st p).station, hstation]
    split
    next hm =>
      rw [hm, hat, Option.map_some, if_pos hstation]
    next hm =>
      cases hx : peerAt s m with
      | none => rfl
      | some x => rw [Option.map_some, if_neg (by rw [peerAt_station hx]; exact hm)]

end

end Sys2Proof.Machine
end

section
/-! ## HAIL_TAKEN and ANSWER_TAKEN (R89, R90, R95, R97, R98) -/

namespace Sys2Proof.Machine

section

variable {n : Nat} {s : State} {a : Accepted} {rest : List Accepted} {b : JoinBody} {p : Peer}

/-- The state that a JOIN gives the entry (R95). -/
def joinedState (digest : Half) (b : JoinBody) (p : Peer) : PeerState :=
  joinState p.state (b.digest == digest) b.answerTo.isNone (b.join == .lockedOut)

/-- The entry of a JOIN's source after it (R95). -/
theorem peerAt_takeJoin (hat : peerAt s a.source = some p) :
    peerAt (takeJoin a b s) a.source = some ((p.heardJoin a b).moved (joinedState s.digest b p)) := by
  unfold takeJoin
  rw [hat]
  dsimp only
  rw [peerAt_congr (setVerdict_kept _ _ _ .peers (by decide)), peerAt_setPeerState (peerAt_mapPeer (f := Peer.heardJoin a b) (fun _ => rfl) hat), if_pos rfl]
  rfl

/-- The verdict of a JOIN's digest, while the join record is kept (R90). -/
theorem takeJoin_verdicts (hat : peerAt s a.source = some p) (hj : Joining s) :
    (takeJoin a b s).join
      = { s.join with verdicts := s.join.verdicts.map fun e =>
            if e.1 = a.source then (a.source, if b.digest == s.digest then Verdict.equal else .different) else e } := by
  unfold takeJoin
  rw [hat]
  dsimp only
  generalize hu : setPeerState a.source _ (mapPeer a.source (Peer.heardJoin a b) s) = u
  have hjoin : u.join = s.join := by rw [← hu, setPeerState_kept _ _ _ .join (by decide), mapPeer_join]
  rw [setVerdict, if_pos (by rw [hjoin]; exact hj), hjoin]

/-- In JOINED a JOIN at its entry leaves the join unit and the line alone. -/
theorem takeJoin_join (hj : s.join.state = .joined) : (takeJoin a b s).join = s.join := by
  unfold takeJoin
  split
  · rfl
  · rw [setVerdict, if_neg (by rw [setPeerState_kept _ _ _ .join (by decide), mapPeer_join, hj]; decide),
      setPeerState_kept _ _ _ .join (by decide), mapPeer_join]

/-- A JOIN at its entry, with the ANSWER that a HAIL asks for (R89). -/
def joinHandled (a : Accepted) (b : JoinBody) (s : State) : State :=
  if b.answerTo.isNone then answerHail a.source (takeJoin a b s) else takeJoin a b s

theorem joinHandled_kept (a : Accepted) (b : JoinBody) (s : State) : KeptBut [.line] (takeJoin a b s) (joinHandled a b s) :=
  KeptBut.ite (fun _ => answerHail_kept _ _) fun _ => KeptBut.refl _ _

/-- The work of HAIL_TAKEN or ANSWER_TAKEN at its frame: the JOIN handled, then the test of completion (R91). -/
theorem exec_joinTaken {dt : Nat} {c : Instr} (hacc : s.line.accepted = a :: rest) (hb : a.body = .join b)
    (hc : (c = .hailTaken dt ∧ b.answerTo = none) ∨ (c = .answerTaken dt ∧ b.answerTo ≠ none)) :
    ∃ f, exec c s = .next (event dt s f) ∧ f (advance dt s) = testCompletion (joinHandled a b (dropAccepted (advance dt s))) := by
  have hacc' : (advance dt s).line.accepted = a :: rest := hacc
  rcases hc with ⟨rfl, hto⟩ | ⟨rfl, hto⟩
  · refine ⟨_, rfl, ?_⟩
    simp only [hacc', hb, joinHandled, hto, Option.isNone_none, if_true]
  · have hsome : b.answerTo.isSome = true := Option.isSome_iff_ne_none.2 hto
    have hnone : b.answerTo.isNone = false := by
      rw [Option.isNone_eq_false_iff]; exact Option.isSome_iff_ne_none.2 hto
    refine ⟨_, rfl, ?_⟩
    simp only [hacc', hb, joinHandled, hsome, hnone, if_true, Bool.false_eq_true, if_false]

/-- A request leaves the hand-over of received frames alone. -/
theorem request_accepted {w : TxWhat} (hw : w.kind ≠ .service) (s : State) : (request w s).line.accepted = s.line.accepted := by
  rcases request_cases hw s with ⟨-, he⟩ | ⟨-, he⟩ | he <;> rw [he] <;> rfl

theorem joinHandled_accepted : (joinHandled a b s).line.accepted = s.line.accepted := by
  have htaken : (takeJoin a b s).line = s.line := takeJoin_kept a b s .line (by decide)
  unfold joinHandled
  split
  · unfold answerHail
    split
    all_goals first
      | rw [request_accepted (by simp [TxWhat.kind]), htaken]
      | rw [htaken]
  · rw [htaken]

/-- In JOINED a HAIL's ANSWER is queued (R89). -/
theorem joinHandled_waits (hj : s.join.state = .joined) (hto : b.answerTo = none) (hq : QueueLaw s) : Waits (.answer a.source) (joinHandled a b s) := by
  have hline : (takeJoin a b s).line = s.line := takeJoin_kept a b s .line (by decide)
  have hjoin : (takeJoin a b s).join.state = .joined := by rw [takeJoin_join hj, hj]
  have he : joinHandled a b s = request (.answer a.source) (takeJoin a b s) := by
    simp [joinHandled, hto, answerHail, hjoin]
  rw [he]
  exact Waits.of_request (by simp [admits, hjoin]) (by rw [hline]; exact hq.ordered)

/-- The table of R95, R97 and R98 for the state of the entry. -/
theorem joinedState_eq (b : JoinBody) (d : Half) (p : Peer) :
    (b.digest ≠ d → joinedState d b p = .mismatched)
      ∧ (b.digest = d → b.join = .lockedOut →
          joinedState d b p = if b.answerTo = none ∨ p.state = .unheard ∨ p.state = .mismatched then .stale else p.state)
      ∧ (b.digest = d → b.join ≠ .lockedOut → b.answerTo = none ∨ (p.state ≠ .live ∧ p.state ≠ .stale) → joinedState d b p = .hailing)
      ∧ (b.digest = d → b.join ≠ .lockedOut → b.answerTo ≠ none → p.state = .live ∨ p.state = .stale → joinedState d b p = p.state) := by
  refine ⟨fun hd => ?_, fun hd hl => ?_, fun hd hl hst => ?_, fun hd hl hto hst => ?_⟩
  · simp [joinedState, joinState, hd]
  · cases hto : b.answerTo <;> cases hst : p.state <;> simp [joinedState, joinState, hd, hl, hto, hst]
  · rcases hst with hto | ⟨h1, h2⟩
    · cases hst : p.state <;> simp [joinedState, joinState, hd, hl, hto, hst]
    · cases hst : p.state <;> simp_all [joinedState, joinState]
  · have hnone : b.answerTo.isNone = false := by
      rw [Option.isNone_eq_false_iff]; exact Option.isSome_iff_ne_none.2 hto
    rcases hst with hst | hst <;> simp [joinedState, joinState, hd, hl, hnone, hst]

end

/-- Settles O47: the entry takes the JOIN's fields and moves by the table of R95; what follows the work leaves the entries and the join unit alone. -/
theorem hailAndAnswerMoveTheEntry : Obligations.HailAndAnswerMoveTheEntry := by
  intro dt s a rest b p c hp hacc hb hat hc
  obtain ⟨f, hex, hf⟩ := exec_joinTaken hacc hb hc
  have hata : peerAt (dropAccepted (advance dt s)) a.source = some (p.grow ((s.clock.frac + dt) / 1000)) := by
    rw [peerAt_congr (dropAccepted_kept _ .peers (by decide)), peerAt_advance, hat]
    rfl
  have hhandled := joinHandled_kept a b (dropAccepted (advance dt s))
  constructor
  · intro hj
    have hjd : (dropAccepted (advance dt s)).join.state = .joined := hj
    have hwork : f (advance dt s) = (joinHandled a b (dropAccepted (advance dt s)), []) := by
      rw [hf, testCompletion, if_neg]
      rw [hhandled .join (by decide), takeJoin_join hjd, hjd]
      simp
    have hpeers : (event dt s f).peers = (takeJoin a b (dropAccepted (advance dt s))).peers := by
      rw [event_peers hp, hwork]
      exact hhandled .peers (by decide)
    obtain ⟨hdiff, hlocked, hhails, hstays⟩ := joinedState_eq b s.digest p
    have hpub := Peer.moved_published (joinedState s.digest b p) ((p.grow ((s.clock.frac + dt) / 1000)).heardJoin a b)
    have hstate := Peer.moved_state (joinedState s.digest b p) ((p.grow ((s.clock.frac + dt) / 1000)).heardJoin a b)
    refine ⟨_, _, hex, ?_, (peerAt_congr hpeers _).trans (peerAt_takeJoin hata), hpub.lastHeard, hpub.joinShown, hpub.roles, hpub.lastStatus,
      fun hd => hstate.trans (hdiff hd), fun hd hl => hstate.trans (hlocked hd hl), fun hd hl hs => hstate.trans (hhails hd hl hs),
      fun hd hl hto hs => hstate.trans (hstays hd hl hto hs), fun hto hq => ?_⟩
    · rw [event_accepted hp, hwork, joinHandled_accepted, dropAccepted_eq (s := advance dt s) hacc]
    · refine Waits.event (alwaysBuilt_answer _) hp ?_
      rw [hwork]
      exact joinHandled_waits hjd hto (QueueLaw.congr (s := s) ⟨rfl, rfl, rfl⟩ hq)
  · intro hj hsent
    have hjd : Joining (dropAccepted (advance dt s)) := hj.symm
    have hjoin := takeJoin_verdicts (b := b) hata hjd
    have hwork : f (advance dt s) = (joinHandled a b (dropAccepted (advance dt s)), []) := by
      rw [hf, testCompletion, if_neg]
      rw [hhandled .join (by decide), hjoin]
      simp [hsent]
    refine ⟨_, hex, ?_⟩
    rw [event_join hp, hwork, hhandled .join (by decide), hjoin]
    simp only [beq_iff_eq]
    rfl

end Sys2Proof.Machine
end

section
/-! ## The end of joining (R88, R91, R92, R159) -/

namespace Sys2Proof.Machine

/-! ### The phase leaves STARTING for good (R105) -/

theorem closingAtPost_ne_starting (s : State) : closingAtPost s ≠ .move .starting := by
  unfold closingAtPost
  repeat' split
  all_goals exact nofun

theorem phaseAct_ne_starting (s : State) : phaseAct s ≠ .move .starting := by
  unfold phaseAct
  repeat' split
  all_goals first
    | exact closingAtPost_ne_starting s
    | exact nofun

/-- No evaluation leads back to STARTING (R105). -/
theorem started_stable : PhaseStable fun s => s.phase.phase ≠ .starting where
  same h hs := by rwa [h.phase_eq]
  upkeep hs := by rwa [releaseUpkeep_phase]
  notes hs := by
    rename_i s
    obtain ⟨l, hl⟩ := noteStanding_phaseUnit s
    rwa [hl]
  releases _ hs := by
    rename_i s _
    obtain ⟨l, hl⟩ := ReleaseDue.phaseUnit s
    rwa [hl]
  moves h _ := fun hp => phaseAct_ne_starting _ (h.trans (congrArg _ hp))
  starts _ _ := nofun

/-- The entry into JOINED, handled first, leads out of STARTING (R105, R111). -/
theorem drain_enteredJoined (n : Nat) (sigs : List Sig) (s : State) : (drain (n + 1) (.enteredJoined :: sigs) s).phase.phase ≠ .starting := by
  rw [drain_cons]
  refine started_stable.drain ?_
  show (if s.phase.phase = .starting then (movePhase .failed s).andThen (evaluate moveFuel) else (s, [])).1.phase.phase ≠ .starting
  split
  · exact started_stable.evaluate (by rw [movePhase_phase]; exact nofun)
  next h => exact h

/-! ### A station before JOINED at rest -/

/-- What an idle sequencer and the phase STARTING leave of the signals of a barrier command: nothing. -/
theorem drain_at_rest {s : State} (hp : s.phase.phase = .starting) (hq : s.seq.active = false) {sigs : List Sig}
    (hsigs : ∀ x ∈ sigs, x = .judge ∨ x = .evaluate) (fuel : Nat) : drain fuel sigs s = s := by
  have hjudge : judgeStep walkFuel s = (s, []) := by
    show judgeStep (24 + 1) s = _
    unfold judgeStep
    rw [hq]
    rfl
  induction fuel generalizing sigs with
  | zero => rfl
  | succ n ih =>
    cases sigs with
    | nil => rfl
    | cons x rest =>
      have hx : handleSig x s = (s, []) := by
        rcases hsigs x List.mem_cons_self with rfl | rfl
        · exact hjudge
        · exact evaluate_starting hp moveFuel
      rw [drain_cons, hx, List.append_nil]
      exact ih fun y hy => hsigs y (List.mem_cons_of_mem _ hy)

/-! ### The conclusion before JOINED -/

theorem startAttempt_sublist (i : TxItem) (s : State) : (startAttempt i s).line.queue.Sublist s.line.queue := by
  rw [startAttempt_queue]
  exact List.filter_sublist

theorem contend_sublist (s : State) : (contend s).line.queue.Sublist s.line.queue := by
  unfold contend
  repeat' split
  all_goals first
    | exact startAttempt_sublist _ s
    | exact List.Sublist.refl _

/-- Before JOINED a conclusion adds no frame to the queue, and leaves a frame in flight as it is (R64, R72). -/
theorem conclude_frames_unjoined {s0 s1 : State} (hj : s0.join.state ≠ .joined) :
    (conclude s0 s1).line.queue.Sublist s1.line.queue
      ∧ ∀ f, s1.line.flight = some f → (conclude s0 s1).line.flight = some f := by
  unfold conclude
  extract_lets s2 s3 s4 s5
  have hl2 : s2.line = s1.line := judged_line s0 s1
  have hs3 : s3 = s2 := if_neg fun h => hj h.1
  obtain ⟨hq4, -, hf4⟩ := followQuiet_sameFrames s3
  have hq4' : s4.line.queue = s1.line.queue := by rw [← hl2, ← hs3]; exact hq4
  have hf4' : s4.line.flight = s1.line.flight := by rw [← hl2, ← hs3]; exact hf4
  have hl : (transmit s5).line = s5.line := transmit_kept s5 .line (by decide)
  rw [hl]
  have h5 : s5.line.queue.Sublist s4.line.queue ∧ ∀ f, s4.line.flight = some f → s5.line.flight = some f := by
    unfold s5
    split
    · obtain ⟨hq5, -, hf5⟩ := followQuiet_sameFrames (contend s4)
      refine ⟨?_, fun f hf => ?_⟩
      · rw [show (contendNow s4).line.queue = _ from hq5]
        exact contend_sublist s4
      · rw [show (contendNow s4).line.flight = _ from hf5, contend_in_flight hf]
        exact hf
    · exact ⟨List.Sublist.refl _, fun f hf => hf⟩
  rw [hq4', hf4'] at h5
  exact h5

/-! ### Into JOINED (R91, R95) -/

section

variable {s : State}

/-- A row of peers made STALE: the entries named are, every other is as it was. -/
theorem peerAt_stales (l : List Nat) {n : Nat} {p : Peer} (hat : peerAt s n = some p) :
    ∃ q, peerAt (l.foldl (fun w m => setPeerState m .stale w) s) n = some q ∧ q.state = if n ∈ l then .stale else p.state := by
  induction l generalizing s p with
  | nil => exact ⟨p, hat, by simp⟩
  | cons m rest ih =>
    have step : ∃ q, peerAt (setPeerState m .stale s) n = some q ∧ q.state = if n = m then .stale else p.state := by
      cases hm : peerAt s m with
      | none =>
        have hne : n ≠ m := by rintro rfl; rw [hat] at hm; cases hm
        exact ⟨p, by simp [setPeerState, hm, hat], by simp [hne]⟩
      | some x =>
        refine ⟨if n = m then x.moved .stale else p, ?_, ?_⟩
        · rw [peerAt_setPeerState hm n, hat]
          split <;> rfl
        · split
          · exact Peer.moved_state _ _
          · rfl
    obtain ⟨q, hq, hqs⟩ := step
    obtain ⟨q', hq', hqs'⟩ := ih hq
    refine ⟨q', hq', ?_⟩
    rw [hqs', hqs]
    by_cases h1 : n ∈ rest <;> by_cases h2 : n = m <;> simp [h1, h2]

/-- The entry of a station is the one entry with its number. -/
theorem peerAt_of_mem (hn : (s.peers.map (·.station)).Nodup) {p : Peer} (hp : p ∈ s.peers) : peerAt s p.station = some p := by
  cases hq : peerAt s p.station with
  | none =>
    rw [peerAt, List.find?_eq_none] at hq
    exact absurd (beq_self_eq_true _) (hq p hp)
  | some q =>
    rw [List.inj_on_of_nodup_map hn (List.mem_of_find?_eq_some hq) hp (peerAt_station hq)]

/-- The entries after the entry into JOINED: every UNHEARD peer STALE (R95). -/
theorem peerAt_enterJoined (hn : (s.peers.map (·.station)).Nodup) {n : Nat} {p : Peer} (hat : peerAt s n = some p) :
    ∃ q, peerAt (enterJoined s).1 n = some q ∧ q.state = if p.state = .unheard then .stale else p.state := by
  unfold enterJoined
  extract_lets s1 s2
  have hat1 : peerAt s1 n = some p := hat
  obtain ⟨q, hq, hqs⟩ := peerAt_stales ((s1.peers.filter fun p => p.state == .unheard).map (·.station)) hat1
  refine ⟨q, (peerAt_congr (queueStatus_kept s2 .peers (by decide)) n).trans hq, hqs.trans ?_⟩
  have hmem : n ∈ (s1.peers.filter fun p => p.state == .unheard).map (·.station) ↔ p.state = .unheard := by
    simp only [List.mem_map, List.mem_filter, beq_iff_eq]
    constructor
    · rintro ⟨x, ⟨hx, hxs⟩, rfl⟩
      have hxp : peerAt s x.station = some x := peerAt_of_mem hn hx
      rw [hat] at hxp
      cases hxp
      exact hxs
    · exact fun hs => ⟨p, ⟨List.mem_of_find?_eq_some hat, hs⟩, peerAt_station hat⟩
  simp only [hmem]

/-- The entry into JOINED is the one signal of its work, and a STATUS waits after it (R91). -/
theorem enterJoined_signals : (enterJoined s).2 = [.enteredJoined] := rfl

theorem enterJoined_waits (ho : s.line.Ordered) : Waits .status (enterJoined s).1 := by
  unfold enterJoined
  extract_lets s1 s2
  have hk : KeptBut _ s1 s2 := KeptBut.foldl _ (fun t n => setPeerState_kept n .stale t) _ s1
  have hj : s2.join.state = .joined := by rw [hk .join (by decide)]; rfl
  have hl : s2.line = s.line := hk .line (by decide)
  have h : Waits .status (request .status s2) := Waits.of_request (by simp [admits, hj]) (by rw [hl]; exact ho)
  exact h.congr (s := request .status s2) rfl rfl

/-- The STATUS of the entry into JOINED is queued, with the frame in flight as it was (R91). -/
theorem enterJoined_status : statusQueued (enterJoined s).1 = true ∧ (enterJoined s).1.line.flight = s.line.flight := by
  unfold enterJoined
  extract_lets s1 s2
  have hk : KeptBut _ s1 s2 := KeptBut.foldl _ (fun t n => setPeerState_kept n .stale t) _ s1
  have hj : s2.join.state = .joined := by rw [hk .join (by decide)]; rfl
  have hl : s2.line = s.line := hk .line (by decide)
  have hq : Queued .status (request .status s2) := queued_request (by decide) (by simp [admits, hj])
  constructor
  · obtain ⟨i, hi, hw⟩ := hq
    rw [statusQueued, queuedUnder, List.find?_isSome]
    exact ⟨i, hi, by rw [hw]; rfl⟩
  · rw [← hl]
    show (request .status s2).line.flight = _
    rcases request_cases (w := .status) (by decide) s2 with ⟨-, he⟩ | ⟨-, he⟩ | he <;> rw [he] <;> rfl

end

end Sys2Proof.Machine
end

section
/-! ## The commands of the join exchange (R88, R91, R92, R159) -/

namespace Sys2Proof.Machine

section

variable {dt : Nat} {s : State}

/-! ### The entry into LOCKED_OUT by majority (R92, R159) -/

theorem BarrierUnit.beginLower_command (now : Time) (b : BarrierUnit) : (b.beginLower now).command = b.command := by
  unfold beginLower
  split <;> rfl

theorem BarrierUnit.beginRaise_command (now : Time) (b : BarrierUnit) : (b.beginRaise now).command = b.command := by
  unfold beginRaise
  split <;> rfl

theorem BarrierUnit.findDrive_command (now : Time) (ph : Phase) (b : BarrierUnit) : (b.findDrive now ph).command = b.command := by
  unfold findDrive
  extract_lets b1 b2 b3
  have h1 : b1.command = b.command := by unfold b1; split <;> rfl
  have h2 : b2.command = b1.command := by unfold b2; split <;> rfl
  have h3 : b3.command = b2.command := by unfold b3; split <;> simp only [beginLower_command]
  rw [← h1, ← h2, ← h3]
  split <;> simp only [beginRaise_command]

theorem barrierSettle_command (s : State) : (barrierSettle s).1.barrier.command = s.barrier.command := by
  by_cases h : barrierServed s = true
  · rw [barrierSettle_barrier h]
    exact BarrierUnit.findDrive_command _ _ _
  · rw [barrierSettle, if_neg h]

theorem handCommand_command (c : BarrierCmd) (s : State) : (handCommand c s).1.barrier.command = c := by
  show (countChange _ (barrierSettle _).1).barrier.command = c
  rw [countChange_kept _ _ .barrier (by decide), barrierSettle_command]

/-- A barrier command asks for the judgement of the sequencer's step and an evaluation of the phase, at most. -/
theorem handCommand_signals (c : BarrierCmd) (s : State) : ∀ x ∈ (handCommand c s).2, x = .judge ∨ x = .evaluate := by
  have settle (w : State) : ∀ x ∈ (barrierSettle w).2, x = .judge ∨ x = .evaluate := by
    unfold barrierSettle
    split
    · extract_lets b st s1
      split <;> simp
    · simp
  intro x hx
  simp only [handCommand, Work.andThen, List.append_nil] at hx
  exact settle _ x hx

theorem enterLockedOut_signals (s : State) : ∀ x ∈ (enterLockedOut s).2, x = .judge ∨ x = .evaluate := by
  unfold enterLockedOut
  extract_lets s1 line s2
  split
  · exact handCommand_signals _ _
  · simp

/-- The line after the entry into LOCKED_OUT: HAIL frames alone queued, the frame in flight not retried (R92). -/
theorem enterLockedOut_line (s : State) : (enterLockedOut s).1.line
    = { s.line with queue := s.line.queue.filter fun i => i.what == .hail, flight := s.line.flight.map fun f => { f with noRetry := true } } := by
  unfold enterLockedOut
  extract_lets s1 line s2
  split
  · rw [handCommand_kept _ _ .line (by decide), applyPattern_kept _ _ _ .line (by decide)]
    rfl
  · rfl

/-- The fallback of a post at the entry into LOCKED_OUT (R159). -/
theorem enterLockedOut_fallback (h : isPost s = true) : (enterLockedOut s).1.lights.amber = false ∧ (enterLockedOut s).1.lights.red = .alternate
    ∧ (enterLockedOut s).1.barrier.command = .release := by
  unfold enterLockedOut
  extract_lets s1 line s2
  rw [if_pos (show isPost s2 = true from h)]
  have hlights := handCommand_kept .release (applyPattern false .alternate s2) .lights (by decide)
  have hp := applyPattern_pattern false .alternate s2
  refine ⟨?_, ?_, handCommand_command _ _⟩
  · rw [hlights]
    exact hp.amber
  · rw [hlights]
    exact hp.red

theorem enterLockedOut_kept_few (s : State) : KeptBut [.join, .line, .lights, .conds, .notices, .barrier] s (enterLockedOut s).1 := by
  unfold enterLockedOut
  extract_lets s1 line s2
  have h2 : KeptBut [.join, .line, .lights, .conds, .notices, .barrier] s s2 := by
    intro p hp; cases p <;> first | rfl | exact ⟨rfl, rfl⟩ | exact absurd (by decide) hp
  split
  · exact (h2.trans ((applyPattern_kept _ _ _).mono (by decide))).trans ((handCommand_kept _ _).mono (by decide))
  · exact h2

/-- A lockout by majority at the end of its event, from STARTING with an idle sequencer. -/
theorem event_lockedOut {f : State → Work} (hp : s.powered = true) (hf : f (advance dt s) = enterLockedOut (advance dt s))
    (hph : s.phase.phase = .starting) (hseq : s.seq.state = .idle) :
    event dt s f = conclude (advance dt s) (enterLockedOut (advance dt s)).1 := by
  have hk := enterLockedOut_kept_few (advance dt s)
  have hstart : (enterLockedOut (advance dt s)).1.phase.phase = .starting := by rw [hk .phase (by decide)]; exact hph
  have hidle : (enterLockedOut (advance dt s)).1.seq.active = false := by
    rw [hk .seq (by decide), SeqUnit.active, show (advance dt s).seq.state = .idle from hseq]
    rfl
  rw [event_eq hp, hf, phaseInputsChanged_same (hk .sections (by decide)) (hk .peers (by decide)), if_neg Bool.false_ne_true, List.append_nil]
  rw [drain_at_rest hstart hidle (enterLockedOut_signals _)]

/-! ### HAIL_TIMER (R88, R92) -/

theorem hailTimer_hails (hp : s.powered = true) (hst : s.join.state = .hailing ∨ s.join.state = .lockedOut) (hb : s.join.blind = false)
    (hr : reached (advance dt s).clock.ms s.join.nextHail = true) (hq : QueueLaw s) :
    ∃ t, exec (.hailTimer dt) s = .next t ∧ underway t .hail ∧ t.join = { s.join with nextHail := later s.join.nextHail 200 }
      ∧ KeptBut (.join :: watchedParts) (advance dt s) t := by
  generalize hw : putJoin (fun j => { j with nextHail := later j.nextHail 200 }) (advance dt s) = w
  have hjoin : w.join = { s.join with nextHail := later s.join.nextHail 200 } := by rw [← hw]; rfl
  have hline : w.line = s.line := by rw [← hw]; rfl
  have hwork : guarded (fun s => (s.join.state == .hailing || s.join.state == .lockedOut) && !s.join.blind && reached s.clock.ms s.join.nextHail)
      (plain fun s => request .hail (putJoin (fun j => { j with nextHail := later j.nextHail 200 }) s)) (advance dt s) = (request .hail w, []) := by
    rw [guarded_apply, plain_apply, hw]
    have hr' : reached (advance dt s).clock.ms (advance dt s).join.nextHail = true := hr
    simp only [Bool.and_eq_true, Bool.or_eq_true, beq_iff_eq, Bool.not_eq_true']
    exact ⟨⟨hst, hb⟩, hr'⟩
  have hadmits : admits w.join .hail = true := by
    rw [hjoin]
    rcases hst with hst | hst <;> simp [admits, hst, hb, TxWhat.kind]
  have hk : KeptBut [.join, .line] (advance dt s) (request .hail w) := by
    have h1 : KeptBut [.join, .line] (advance dt s) w := by rw [← hw]; exact (putJoin_kept _ _).mono (by decide)
    exact h1.trans ((request_kept_line (by decide) w).mono (by decide))
  obtain ⟨-, hc, hkept⟩ := event_settles hp hwork hk (by decide)
  refine ⟨_, rfl, ?_, ?_, hkept.mono (by decide)⟩
  · refine Waits.event alwaysBuilt_hail hp ?_
    rw [hwork]
    exact Waits.of_request hadmits (by rw [hline]; exact hq.ordered)
  · rw [hc.kept .join (by decide), request_kept_line (by decide) w .join (by decide), hjoin]

/-! ### JOIN_WINDOW_END (R91, R92) -/

/-- The majority test is passed without a DIFFERENT verdict, or with as many EQUAL ones (R91). -/
theorem majorityPasses_iff (s : State) :
    majorityPasses s = true ↔ countVerdicts .different s = 0 ∨ countVerdicts .different s ≤ countVerdicts .equal s := by
  simp only [majorityPasses, Bool.not_eq_true', Bool.and_eq_false_iff, decide_eq_false_iff_not]
  omega

/-- A station is JOINED at the end of the event that completes the join, out of STARTING (R91, R105). -/
theorem event_joined {f : State → Work} {u : State} (hp : s.powered = true) (hf : f (advance dt s) = enterJoined u) :
    (event dt s f).join = { u.join with state := .joined, windowStart := none } ∧ (event dt s f).phase.phase ≠ .starting := by
  constructor
  · rw [event_join hp, hf, enterJoined_join]
  · rw [event_eq hp, conclude_phase, hf, enterJoined_signals]
    exact drain_enteredJoined 1023 _ _

section

variable {c : Time} (hp : s.powered = true) (hj : s.join.state = .hailing) (hc : s.join.windowStart = some c)
  (hran : s.cfg.timing.joinWindow ≤ ((advance dt s).clock.ms - c).toNat)
include hp hj hc hran

omit hp in
/-- The window is over: the joining ends by the majority test (R91). -/
theorem joinWindowEnd_work :
    guarded (fun s => s.join.state == .hailing && ranFor s s.join.windowStart s.cfg.timing.joinWindow) endJoining (advance dt s)
      = endJoining (advance dt s) := by
  refine guarded_apply ?_
  have hr : ranFor (advance dt s) s.join.windowStart s.cfg.timing.joinWindow = true := by
    rw [hc]
    exact decide_eq_true hran
  simp only [advance_join, hj, beq_self_eq_true, Bool.true_and]
  exact hr

theorem joinWindowEnd_joins (hm : countVerdicts .different s = 0 ∨ countVerdicts .different s ≤ countVerdicts .equal s) :
    ∃ t, exec (.joinWindowEnd dt) s = .next t
      ∧ t.join = { s.join with state := .joined, windowStart := none } ∧ t.phase.phase ≠ .starting
      ∧ ((s.peers.map (·.station)).Nodup → ∀ (n : Nat) (p : Peer), peerAt s n = some p → ∃ q, peerAt t n = some q
          ∧ q.state = if p.state = .unheard then .stale else p.state)
      ∧ (QueueLaw s → underway t .status) := by
  have hwork := joinWindowEnd_work hj hc hran
  rw [endJoining, if_pos ((majorityPasses_iff (advance dt s)).2 hm)] at hwork
  obtain ⟨hjoin, hphase⟩ := event_joined hp hwork
  refine ⟨_, rfl, hjoin, hphase, fun hn n p hat => ?_, fun hq => ?_⟩
  · have hn' : ((advance dt s).peers.map (·.station)).Nodup := by
      show ((s.peers.map (Peer.grow _)).map (·.station)).Nodup
      rw [List.map_map]
      exact hn
    have hat' : peerAt (advance dt s) n = some (p.grow ((s.clock.frac + dt) / 1000)) := by rw [peerAt_advance, hat]; rfl
    obtain ⟨q, hq, hqs⟩ := peerAt_enterJoined hn' hat'
    refine ⟨q, ?_, hqs⟩
    rw [peerAt_congr (event_peers hp), hwork]
    exact hq
  · refine Waits.event alwaysBuilt_status hp ?_
    rw [hwork]
    exact enterJoined_waits hq.ordered

theorem joinWindowEnd_locksOut (hph : s.phase.phase = .starting) (hseq : s.seq.state = .idle)
    (hm : ¬(countVerdicts .different s = 0 ∨ countVerdicts .different s ≤ countVerdicts .equal s)) :
    ∃ t, exec (.joinWindowEnd dt) s = .next t
      ∧ t.join = { s.join with state := .lockedOut, windowStart := none, nextHail := later (advance dt s).clock.ms 200,
                               lowerStart := some (advance dt s).clock.ms }
      ∧ (∀ i ∈ t.line.queue, i.what = .hail)
      ∧ (∀ f : Flight, s.line.flight = some f → t.line.flight = some { f with noRetry := true })
      ∧ t.phase.phase = .starting
      ∧ (isPost s = true → t.lights.amber = false ∧ t.lights.red = .alternate ∧ t.barrier.command = .release) := by
  have hwork := joinWindowEnd_work hj hc hran
  rw [endJoining, if_neg fun h => hm ((majorityPasses_iff (advance dt s)).1 h)] at hwork
  have hunjoined : s.join.state ≠ .joined := by rw [hj]; decide
  have he := event_lockedOut hp hwork hph hseq
  have hk := conclude_kept (advance dt s) (enterLockedOut (advance dt s)).1
  obtain ⟨hqueue, hflight⟩ := conclude_frames_unjoined (s0 := advance dt s) (s1 := (enterLockedOut (advance dt s)).1) hunjoined
  rw [enterLockedOut_line] at hqueue hflight
  refine ⟨_, congrArg Host.Outcome.next he, ?_, fun i hi => ?_, fun f hf => ?_, ?_, fun hpost => ?_⟩
  · rw [hk .join (by decide), enterLockedOut_join, advance_join]
  · have hmem := (List.mem_filter.1 (hqueue.mem hi)).2
    exact beq_iff_eq.1 hmem
  · refine hflight _ ?_
    rw [advance_line, hf]
    rfl
  · rw [conclude_phase, enterLockedOut_kept_few _ .phase (by decide)]
    exact hph
  · rw [hk .lights (by decide), hk .barrier (by decide)]
    exact enterLockedOut_fallback hpost

end

/-! ### The first HAIL sent (R91) -/

section

variable {f : Flight} (hp : s.powered = true) (hf : s.line.flight = some f) (hhail : f.item.what = .hail)
  (hdriving : f.drivingA = true ∨ f.drivingB = true) (hend : (f.bytes.length * 15625 + 30) / 60 ≤ ((advance dt s).clock.us - f.startUs).toNat)
  (hj : s.join.state = .hailing) (hsent : s.join.firstHailSent = false)

/-- The first HAIL sent and noted. -/
def firstHailNoted (f : Flight) (s : State) : State := putJoin (fun j => { j with firstHailSent := true }) (frameSent f s)

theorem firstHailNoted_kept (f : Flight) (s : State) : KeptBut [.line, .conds, .notices, .join] s (firstHailNoted f s) :=
  ((frameSent_kept f s).mono (by decide)).trans ((putJoin_kept _ _).mono (by decide))

theorem firstHailNoted_join (f : Flight) (s : State) : (firstHailNoted f s).join = { s.join with firstHailSent := true } := by
  rw [firstHailNoted, putJoin_join, frameSent_kept _ _ .join (by decide)]

theorem firstHailNoted_line (hhail : f.item.what = .hail) (s : State) : (firstHailNoted f s).line = { s.line with flight := none } := by
  show (frameSent f s).line = _
  rw [frameSent_line, hhail]
  rfl

include hf hhail hdriving hend hsent in
/-- The end of the first HAIL's attempt is the test of completion (R91). -/
theorem firstHail_work : attemptOverWork (advance dt s) = testCompletion (firstHailNoted f (advance dt s)) := by
  have hover : attemptOver (advance dt s) f = true := by
    have hran : frameUs f.bytes.length ≤ sinceUs (advance dt s) f.startUs := hend
    simp [attemptOver, hran]
  have hjoin : (frameSent f (advance dt s)).join = s.join := frameSent_kept _ _ .join (by decide)
  simp only [attemptOverWork, advance_line, hf, hover, if_true, attemptEnd, if_pos hdriving, attemptSent, hhail, hjoin, hsent, Bool.not_false,
    true_and, firstHailNoted]

include hp hf hhail hdriving hend hj hsent

theorem firstHail_joins (hg : s.line.gapEnd = none) (hall : ∀ e ∈ s.join.verdicts, e.2 = .equal) :
    ∃ t, exec (.frameAttemptEnd dt) s = .next t ∧ t.join = { s.join with firstHailSent := true, state := .joined, windowStart := none }
      ∧ t.phase.phase ≠ .starting ∧ t.line.flight = none ∧ statusQueued t = true := by
  have hjoin := firstHailNoted_join f (advance dt s)
  have hline := firstHailNoted_line hhail (advance dt s)
  have hwork := firstHail_work hf hhail hdriving hend hsent
  generalize firstHailNoted f (advance dt s) = u at hjoin hline hwork
  have hnone : countVerdicts .different u = 0 := by
    rw [countVerdicts, hjoin, List.length_eq_zero_iff, List.filter_eq_nil_iff]
    intro e he
    rw [hall e he]
    decide
  have hcomplete : testCompletion u = enterJoined u := by
    rw [testCompletion, if_pos, endJoining, if_pos ((majorityPasses_iff u).2 (.inl hnone))]
    rw [hjoin]
    refine ⟨hj, rfl, List.all_eq_true.2 fun e he => ?_⟩
    rw [hall e he]
    rfl
  rw [hcomplete] at hwork
  obtain ⟨htj, htp⟩ := event_joined hp hwork
  obtain ⟨hstatus, hflight⟩ := enterJoined_status (s := u)
  have hgap : (advance dt s).line.gapEnd = none := hg
  have hdrain := drain_kept drainFuel ((attemptOverWork (advance dt s)).2
      ++ if phaseInputsChanged (advance dt s) (attemptOverWork (advance dt s)).1 then [.evaluate] else []) (attemptOverWork (advance dt s)).1
      .line (by decide)
  obtain ⟨hmem, hfl⟩ := conclude_without_gap (s1 := drain drainFuel ((attemptOverWork (advance dt s)).2
      ++ if phaseInputsChanged (advance dt s) (attemptOverWork (advance dt s)).1 then [.evaluate] else []) (attemptOverWork (advance dt s)).1) hgap
  rw [← event_eq hp, hdrain, hwork] at hmem hfl
  refine ⟨_, exec_frameAttemptEnd dt s, ?_, htp, ?_, ?_⟩
  · rw [htj, hjoin]
    rfl
  · rw [hfl, hflight, hline]
  · rw [statusQueued, queuedUnder, List.find?_isSome] at hstatus ⊢
    obtain ⟨i, hi, hk⟩ := hstatus
    exact ⟨i, hmem i hi, hk⟩

theorem firstHail_noted (hph : s.phase.phase = .starting) (hg : s.line.gapEnd = none) (hopen : ∃ e ∈ s.join.verdicts, e.2 ≠ .equal) :
    ∃ t, exec (.frameAttemptEnd dt) s = .next t ∧ t.join = { s.join with firstHailSent := true } ∧ t.phase.phase = .starting
      ∧ t.line.flight = none ∧ t.line.queue = s.line.queue := by
  have hk := firstHailNoted_kept f (advance dt s)
  have hjoin := firstHailNoted_join f (advance dt s)
  have hline := firstHailNoted_line hhail (advance dt s)
  have hwork := firstHail_work hf hhail hdriving hend hsent
  generalize firstHailNoted f (advance dt s) = u at hk hjoin hline hwork
  have hstays : testCompletion u = (u, []) := by
    refine if_neg fun ⟨_, _, hall⟩ => ?_
    obtain ⟨e, he, hne⟩ := hopen
    rw [hjoin] at hall
    exact hne (beq_iff_eq.1 (List.all_eq_true.1 hall e he))
  rw [hstays] at hwork
  obtain ⟨he, hc, -⟩ := event_settles hp hwork hk (by decide)
  have hgap : (advance dt s).line.gapEnd = none := hg
  obtain ⟨q, g, hl⟩ := conclude_line_unjoined (s0 := advance dt s) (s1 := u) (by rw [advance_join, hj]; decide) (readyNow_noGap hgap u)
  rw [← he] at hl
  refine ⟨_, exec_frameAttemptEnd dt s, ?_, ?_, ?_, ?_⟩
  · rw [hc.kept .join (by decide), hjoin]
    rfl
  · rw [hc.kept .phase (by decide), hk .phase (by decide)]
    exact hph
  · rw [hl, hline]
  · rw [hl, hline]
    rfl

end

end

/-- Settles O50: the join exchange's timers and the first HAIL sent, to JOINED or to LOCKED_OUT. -/
theorem joiningEndsInJoinedOrLockedOut : Obligations.JoiningEndsInJoinedOrLockedOut := by
  refine ⟨fun dt s hp => ⟨hailTimer_hails hp, fun c hj hc hran hph hseq => ⟨joinWindowEnd_joins hp hj hc hran, fun h0 hlt => ?_⟩⟩,
    fun dt s f hp hf hhail hdriving hend hj hsent hph hg => ⟨firstHail_joins hp hf hhail hdriving hend hj hsent hg,
      firstHail_noted hp hf hhail hdriving hend hj hsent hph hg⟩⟩
  exact joinWindowEnd_locksOut hp hj hc hran hph hseq (by omega)

end Sys2Proof.Machine
end

section
/-! ## What the evaluation of a STATUS leaves for the evaluation after it (R94, R106, R120) -/

namespace Sys2Proof.Machine

/-! ### One release in an event (R120) -/

theorem Sect.hold_undemanding {now : Time} {r : Sect} (h : r.demands now = false) : r.hold.demands now = false := by
  have ha : r.hold.isApproach = r.isApproach := rfl
  have hs : r.hold.state = r.state := rfl
  have hh : r.hold.held = true := rfl
  unfold Sect.demands at h ⊢
  rw [ha, hs, hh]
  split
  next hap =>
    rw [if_pos hap, Bool.or_eq_false_iff] at h
    simp [h.1]
  next hap => rwa [if_neg hap] at h

/-- What a release has still to do: the records that demand are approaching sections, and are among those to be held. -/
def ReleasesLeft (now : Time) (ids : List Nat) (s : State) : Prop :=
  ∀ r ∈ s.sections, r.demands now = false ∨ (r.approaching = true ∧ r.id ∈ ids)

theorem ReleasesLeft.releaseOne {now : Time} {id : Nat} {ids : List Nat} {s : State} (h : ReleasesLeft now (id :: ids) s) :
    ReleasesLeft now ids (releaseOne s id) := by
  have later {q : Sect} (hq : q ∈ s.sections) (hid : q.id ≠ id) : q.demands now = false ∨ (q.approaching = true ∧ q.id ∈ ids) :=
    (h q hq).imp_right fun ⟨ha, hm⟩ => ⟨ha, (List.mem_cons.1 hm).resolve_left hid⟩
  have hrel : (Machine.releaseOne s id).sections = (mapSect id Sect.hold s).sections := raiseCond_sections _ _
  rw [ReleasesLeft, hrel]
  cases hat : sectAt s id with
  | none =>
    rw [mapSect_of_none hat]
    exact fun q hq => later hq (sectAt_eq_none.1 hat q hq)
  | some r =>
    rw [mapSect_hold hat]
    intro x hx
    obtain ⟨q, hq, rfl⟩ := List.mem_map.1 hx
    split
    · refine .inl ?_
      rcases h r (sectAt_mem hat) with hd | ⟨ha, -⟩
      · exact Sect.hold_undemanding hd
      · exact (Sect.hold_silent ha now 0).1
    next hne => exact later hq fun hid => hne (hid.trans (sectAt_id hat).symm)

/-- After a release no section demands (R120). -/
theorem closingDemand_makeRelease {s : State} (h : releaseHolds s = true) : closingDemand (makeRelease s) = false := by
  have hstand : ∀ r ∈ demanding s, r.standing s.clock.ms s.cfg.timing.warningTime = true := by
    rw [releaseHolds, Bool.and_eq_true] at h
    exact List.all_eq_true.1 h.2
  have hstart : ReleasesLeft s.clock.ms ((demanding s).map (·.id)) s := by
    intro r hr
    cases hd : r.demands s.clock.ms with
    | false => exact .inl rfl
    | true =>
      have hm : r ∈ demanding s := List.mem_filter.2 ⟨hr, hd⟩
      exact .inr ⟨(Sect.standing_approaching (hstand r hm)).1, List.mem_map_of_mem hm⟩
  have hall : ∀ (ids : List Nat) {w : State}, ReleasesLeft s.clock.ms ids w → ReleasesLeft s.clock.ms [] (ids.foldl releaseOne w) := by
    intro ids
    induction ids with
    | nil => exact fun hw => hw
    | cons id rest ih => exact fun hw => ih hw.releaseOne
  have hclock : (makeRelease s).clock = s.clock := makeRelease_kept s .clock (by decide)
  rw [closingDemand, hclock, List.any_eq_false]
  intro r hr
  have hend : r.demands s.clock.ms = false ∨ (r.approaching = true ∧ r.id ∈ []) := hall _ hstart r hr
  simpa using hend

theorem releaseTested_undemanded {s : State} (h : closingDemand s = false) : releaseTested s = false := by
  have hnone : demanding s = [] := by
    rw [closingDemand, List.any_eq_false] at h
    exact List.filter_eq_nil_iff.2 h
  simp [releaseTested, hnone]

/-- The release test reads the phase unit, the sections, the clock and the configuration (R120). -/
theorem releaseHolds_congr {s t : State} (hp : t.phase.phase = s.phase.phase) (he : t.phase.releaseExpired = s.phase.releaseExpired)
    (hs : t.sections = s.sections) (hclock : t.clock = s.clock) (hcfg : t.cfg = s.cfg) : releaseHolds t = releaseHolds s := by
  simp only [releaseHolds, releaseTested, demanding, islandsClear, hp, he, hs, hclock, hcfg]

/-- A station with no release due and the sections given. -/
def Unreleased (sections : List Sect) (s : State) : Prop := releaseHolds s = false ∧ s.sections = sections

theorem releaseHolds_unexpired {s : State} (h : s.phase.releaseExpired = false) : releaseHolds s = false := by
  simp [releaseHolds, releaseTested, h]

theorem releaseHolds_upkeep {s : State} (h : releaseHolds s = false) : releaseHolds (releaseUpkeep s) = false := by
  unfold releaseUpkeep
  repeat' split
  · exact h
  next hc =>
    refine releaseHolds_unexpired ?_
    simpa using hc.2
  · exact h
  · exact releaseHolds_unexpired rfl

/-- No release comes due while signals are handled: the clock stands, and a move starts the release timer afresh (R106, R120). -/
theorem releaseShut_stable : PhaseStable fun s => releaseHolds s = false where
  same h hs := (releaseHolds_congr h.phase_eq h.releaseExpired h.sections h.clock h.cfg).trans hs
  upkeep hs := releaseHolds_upkeep hs
  notes hs := (releaseHolds_noteStanding _).trans hs
  releases h hs := absurd (h.symm.trans hs) (by decide)
  moves _ _ := releaseHolds_unexpired rfl
  starts _ _ := releaseHolds_unexpired rfl

/-- But for a release nothing in the handling of signals touches a section (R106, R120). -/
theorem unreleased_stable (sections : List Sect) : PhaseStable (Unreleased sections) where
  same h hs := ⟨releaseShut_stable.same h hs.1, h.sections.trans hs.2⟩
  upkeep hs := ⟨releaseShut_stable.upkeep hs.1, (releaseUpkeep_kept _ .sections (by decide)).trans hs.2⟩
  notes hs := ⟨releaseShut_stable.notes hs.1, (noteStanding_kept _ .sections (by decide)).trans hs.2⟩
  releases h hs := absurd (h.symm.trans hs.1) (by decide)
  moves hact hs := ⟨releaseShut_stable.moves hact hs.1, (entered_kept _ _ .sections (by decide)).trans hs.2⟩
  starts hp hs := ⟨releaseShut_stable.starts hp hs.1, (entered_kept _ _ .sections (by decide)).trans hs.2⟩

theorem releaseHolds_makeRelease {s : State} (h : releaseHolds s = true) : releaseHolds (makeRelease s) = false := by
  rw [releaseHolds, releaseTested_undemanded (closingDemand_makeRelease h), Bool.false_and]

/-- After an evaluation no release is due: what was due has been made (R120). -/
theorem releaseHolds_settled (n : Nat) (sigs : List Sig) (s : State) : releaseHolds (drain (n + 1) (.evaluate :: sigs) s) = false :=
  releaseShut_stable.settles (fun _ => releaseHolds_makeRelease) (fun _ h _ => h) (fun _ _ _ => releaseHolds_unexpired rfl) n sigs s

/-! ### The evaluation under a failure demand (R107, R111) -/

/-- A station with a peer that is not LIVE, in FAILED. -/
def FailedOver (s : State) : Prop := (∃ p ∈ s.peers, p.state ≠ .live) ∧ s.phase.phase = .failed

theorem failureDemand_of_peer {s : State} (h : ∃ p ∈ s.peers, p.state ≠ .live) : failureDemand s = true := by
  obtain ⟨p, hp, hne⟩ := h
  by_contra hf
  exact hne ((failureDemand_false_iff.1 (eq_false_of_ne_true hf)).2.1 p hp)

theorem failedOver_stable : PhaseStable FailedOver where
  same h hs := by
    rw [FailedOver, h.peers, h.phase_eq]
    exact hs
  upkeep hs := by
    rw [FailedOver, releaseUpkeep_kept _ .peers (by decide), releaseUpkeep_phase]
    exact hs
  notes hs := by
    rename_i s
    obtain ⟨l, hl⟩ := noteStanding_phaseUnit s
    rw [FailedOver, noteStanding_kept _ .peers (by decide), hl]
    exact hs
  releases _ hs := by
    rename_i s _
    obtain ⟨l, hl⟩ := ReleaseDue.phaseUnit s
    rw [FailedOver, makeRelease_kept _ .peers (by decide), hl]
    exact hs
  moves hact hs := ⟨by rw [entered_kept _ _ .peers (by decide)]; exact hs.1, phaseAct_failing (failureDemand_of_peer hs.1) hact⟩
  starts _ hs := ⟨by rw [entered_kept _ _ .peers (by decide)]; exact hs.1, rfl⟩

/-- Where a peer is not LIVE, an evaluation with no release due ends in FAILED (R106, R107). -/
theorem evaluate_failing {s : State} (hd : ∃ p ∈ s.peers, p.state ≠ .live) (hs : s.phase.phase ≠ .starting)
    (hr : releaseHolds (releaseUpkeep s) = false) (n : Nat) : FailedOver (evaluate (n + 1) s).1 := by
  obtain ⟨l, hl⟩ := noteStanding_phaseUnit (releaseUpkeep s)
  have hpeers : (noteStanding (releaseUpkeep s)).peers = s.peers :=
    (noteStanding_kept _ .peers (by decide)).trans (releaseUpkeep_kept _ .peers (by decide))
  have hphase : (noteStanding (releaseUpkeep s)).phase.phase = s.phase.phase := by rw [hl, ← releaseUpkeep_phase s]
  have hd2 : ∃ p ∈ (noteStanding (releaseUpkeep s)).peers, p.state ≠ .live := by rw [hpeers]; exact hd
  have hf := failureDemand_of_peer hd2
  unfold evaluate
  dsimp only
  rw [hr, if_neg Bool.false_ne_true]
  generalize noteStanding (releaseUpkeep s) = u at hphase hd2 hf
  have hact : (u.phase.phase = .failed ∧ phaseAct u = .stay) ∨ phaseAct u = .move .failed := by
    rw [← hphase] at hs
    unfold phaseAct
    cases hp : u.phase.phase with
    | starting => exact absurd hp hs
    | failed => exact .inl ⟨rfl, if_pos hf⟩
    | closing => exact .inr (if_pos hf)
    | closed => exact .inr (if_pos hf)
    | opening => exact .inr (if_pos hf)
    | opened => exact .inr (if_pos hf)
  rcases hact with ⟨hfailed, hact⟩ | hact <;> rw [hact]
  · exact ⟨hd2, hfailed⟩
  · refine failedOver_stable.evaluate (failedOver_stable.same (SameView.movePhase .failed u) ?_)
    exact ⟨by rw [entered_kept _ _ .peers (by decide)]; exact hd2, rfl⟩

/-- Where a peer is not LIVE the evaluation that follows leads to FAILED, and the phase stays there (R106, R107, R111). -/
theorem drain_failing {s : State} (hd : ∃ p ∈ s.peers, p.state ≠ .live) (hs : s.phase.phase ≠ .starting) (n : Nat) (sigs : List Sig) :
    FailedOver (drain (n + 1) (.evaluate :: sigs) s) := by
  rw [drain_cons]
  refine failedOver_stable.drain ?_
  show FailedOver (evaluate (15 + 1) s).1
  by_cases hr : releaseHolds (releaseUpkeep s) = true
  · obtain ⟨l, hl⟩ := ReleaseDue.phaseUnit (releaseUpkeep s)
    have hpeers : (makeRelease (releaseUpkeep s)).peers = s.peers :=
      (makeRelease_kept _ .peers (by decide)).trans (releaseUpkeep_kept _ .peers (by decide))
    have hone : evaluate (15 + 1) s = evaluate (14 + 1) (makeRelease (releaseUpkeep s)) := by
      rw [evaluate]
      exact if_pos hr
    rw [hone]
    refine evaluate_failing (by rw [hpeers]; exact hd) ?_ (releaseHolds_upkeep (releaseHolds_makeRelease hr)) 14
    rw [hl]
    show (releaseUpkeep s).phase.phase ≠ .starting
    rw [releaseUpkeep_phase]
    exact hs
  · exact evaluate_failing hd hs (eq_false_of_ne_true hr) 15

end Sys2Proof.Machine
end

section
/-! ## STATUS_TAKEN in JOINED (R94, R97, R99 to R102) -/

namespace Sys2Proof.Machine

section

variable {dt : Nat} {s : State} {a : Accepted} {rest : List Accepted} {b : StatusBody} {p : Peer}

/-- The work of STATUS_TAKEN in JOINED (R94, R97). -/
theorem statusWork_joined (hacc : s.line.accepted = a :: rest) (hb : a.body = .status b) (hat : peerAt (dropAccepted s) a.source = some p)
    (hj : s.join.state = .joined) : statusWork s = (if b.digest = s.digest then enterStatus a b p (dropAccepted s)
      else setPeerState a.source .mismatched (mapPeer a.source (fun q => { q with lastHeard := some a.endMs }) (dropAccepted s)), []) := by
  have htake : statusWork s = takeStatus a b (dropAccepted s) := by simp [statusWork, hacc, hb]
  rw [htake]
  exact takeStatus_in_joined (s := dropAccepted s) hj hat

/-- The next frame of the hand-over after STATUS_TAKEN in JOINED. -/
theorem statusTaken_accepted (hp : s.powered = true) (hacc : s.line.accepted = a :: rest) (hb : a.body = .status b)
    (hat : peerAt s a.source = some p) (hj : s.join.state = .joined) : (event dt s statusWork).line.accepted = rest := by
  have hat' : peerAt (dropAccepted (advance dt s)) a.source = some (p.grow ((s.clock.frac + dt) / 1000)) := by
    rw [peerAt_congr (dropAccepted_kept _ .peers (by decide)), peerAt_advance, hat]
    rfl
  have hline : (statusWork (advance dt s)).1.line = (dropAccepted (advance dt s)).line := by
    rw [statusWork_joined (s := advance dt s) hacc hb hat' hj]
    dsimp only
    split
    · exact enterStatus_kept a b _ _ .line (by decide)
    · rw [setPeerState_kept _ _ _ .line (by decide), mapPeer_kept _ _ _ .line (by decide)]
  rw [event_accepted hp, hline, dropAccepted_eq (s := advance dt s) hacc]

/-! ### A STATUS entered, and compared last (R94, R99 to R101) -/

/-- An entry that a change of state makes LIVE has forgotten nothing. -/
theorem Peer.moved_live (p : Peer) : p.moved .live = { p with state := .live } := by
  unfold Peer.moved
  split
  next h => rw [← h]
  next h => exact if_neg (by simp [h])

/-- The entry of a STATUS's source once the frame's fields are in it (R94). -/
theorem peerAt_liveEntry (hat : peerAt s a.source = some p) :
    peerAt (liveEntry a b p s) a.source = some { p.enter (sinceMs s a.endMs) a b with state := .live } := by
  unfold liveEntry
  extract_lets s1
  have h1 : peerAt s1 a.source = some { p.enter (sinceMs s a.endMs) a b with state := .live } := by
    unfold s1
    rw [peerAt_setPeerState (peerAt_mapPeer (f := Peer.enter (sinceMs s a.endMs) a b) (fun _ => rfl) hat), if_pos rfl, Peer.moved_live]
  split
  · exact h1
  · exact (peerAt_congr (drain_kept _ _ _ .peers (by decide)) _).trans h1

/-- What is handed on leaves the entries alone (R94, R106). -/
theorem peerAt_statusHandedOn (hat : peerAt s a.source = some p) :
    peerAt (statusHandedOn a b p s) a.source = some { p.enter (sinceMs s a.endMs) a b with state := .live } := by
  unfold statusHandedOn
  rw [peerAt_congr (drain_kept _ _ _ .peers (by decide)), peerAt_congr (takeReports_kept _ _ _ _ _ .peers (by decide))]
  exact peerAt_liveEntry hat

/-- An entry compared: the fields that differ join the sticky mismatch, and the time of the mismatch stands or goes (R99 to R101). -/
def Peer.compared (endMs : Time) (dp ds dh : Bool) (p : Peer) : Peer :=
  { p with stickyPhase := p.stickyPhase || dp, stickySections := p.stickySections || ds, stickyHealth := p.stickyHealth || dh,
           mismatchSince := if dp || dh || ds then some (p.mismatchSince.getD endMs) else none,
           tolerancePassed := if dp || dh || ds then p.tolerancePassed else false }

theorem peerAt_compareStatus {n : Nat} {endMs : Time} (hat : peerAt s n = some p) :
    peerAt (compareStatus n endMs b s) n = some (p.compared endMs (phaseDiffers s b) (sectionsDiffer s b) (healthDiffers s b)) := by
  simp only [compareStatus]
  generalize phaseDiffers s b = dp
  generalize sectionsDiffer s b = ds
  generalize healthDiffers s b = dh
  have hor : (dp || dh || ds) = (dp || ds || dh) := Bool.or_right_comm _ _ _
  split
  next h => rw [peerAt_mapPeer (by intro q; rfl) hat, Peer.compared, hor, if_pos h, if_pos h]
  next h =>
    obtain ⟨rfl, rfl, rfl⟩ : dp = false ∧ ds = false ∧ dh = false := by simpa [and_assoc] using h
    rw [peerAt_congr (clearCond_kept _ _ .peers (by decide)), peerAt_mapPeer (f := Peer.forgetMismatch) (by intro q; rfl) hat]
    simp [Peer.compared, Peer.forgetMismatch]

/-- A state compared after what a STATUS hands on: the same but for the flash unit and the notices. -/
theorem enterStatus_compares (a : Accepted) (b : StatusBody) (p : Peer) (hj : s.join.state = .joined) : ∃ c,
    KeptBut [.flash, .notices] (statusHandedOn a b p s) c ∧ enterStatus a b p s = compareStatus a.source a.endMs b c :=
  ⟨_, ((statusMeasure_kept _ _ _ _).mono (by decide)).trans ((noticeSync_kept _).mono (by decide)), if_pos hj⟩

/-- The sections at the end of the event of a STATUS are those compared: no release comes due after what the STATUS hands on (R106, R120). -/
theorem event_entered_sections {f : State → Work} {u : State} (hp : s.powered = true) (hj : u.join.state = .joined)
    (hf : f (advance dt s) = (enterStatus a b p u, [])) : (event dt s f).sections = (statusHandedOn a b p u).sections := by
  obtain ⟨c, hc, hcompare⟩ := enterStatus_compares a b p hj
  have hk : KeptBut [.flash, .peers, .conds, .notices] (statusHandedOn a b p u) (enterStatus a b p u) := by
    rw [hcompare]
    exact (hc.mono (by decide)).trans ((compareStatus_kept _ _ _ _).mono (by decide))
  have hsettled : releaseHolds (statusHandedOn a b p u) = false := releaseHolds_settled 1023 [.judge] _
  have hphase : (enterStatus a b p u).phase = (statusHandedOn a b p u).phase := hk .phase (by decide)
  have hstart : Unreleased (statusHandedOn a b p u).sections (enterStatus a b p u) :=
    ⟨(releaseHolds_congr (by rw [hphase]) (by rw [hphase]) (hk .sections (by decide)) (hk .clock (by decide)) (hk .cfg (by decide))).trans hsettled,
      hk .sections (by decide)⟩
  rw [event_eq hp, conclude_kept _ _ .sections (by decide), hf]
  exact ((unreleased_stable _).drain hstart).2

/-- The entry at the end of the event of a STATUS with an equal digest (R94, R99 to R101). -/
theorem statusTaken_enters (hp : s.powered = true) (hacc : s.line.accepted = a :: rest) (hb : a.body = .status b) (hat : peerAt s a.source = some p)
    (hj : s.join.state = .joined) (hd : b.digest = s.digest) :
    peerAt (event dt s statusWork) a.source = some (Peer.compared a.endMs
      (phaseDiffers (statusHandedOn a b p (dropAccepted (advance dt s))) b) (s.cfg.cmpSections && b.sections != sectionSummary (event dt s statusWork))
      (healthDiffers s b)
      { (p.grow ((s.clock.frac + dt) / 1000)).enter (sinceMs (dropAccepted (advance dt s)) a.endMs) a b with state := .live }) := by
  have hat' : peerAt (dropAccepted (advance dt s)) a.source = some (p.grow ((s.clock.frac + dt) / 1000)) := by
    rw [peerAt_congr (dropAccepted_kept _ .peers (by decide)), peerAt_advance, hat]
    rfl
  have hjd : (dropAccepted (advance dt s)).join.state = .joined := hj
  have hwork : statusWork (advance dt s) = (enterStatus a b (p.grow ((s.clock.frac + dt) / 1000)) (dropAccepted (advance dt s)), []) := by
    rw [statusWork_joined (s := advance dt s) hacc hb hat' hj]
    exact congrArg (·, []) (if_pos hd)
  have hsections := event_entered_sections hp hjd hwork
  obtain ⟨c, hc, hcompare⟩ := enterStatus_compares a b (p.grow ((s.clock.frac + dt) / 1000)) hjd
  have hon := statusHandedOn_kept a b (p.grow ((s.clock.frac + dt) / 1000)) (dropAccepted (advance dt s))
  have hcfg : c.cfg = s.cfg := (hc .cfg (by decide)).trans (hon .cfg (by decide))
  have hline : c.line = (dropAccepted (advance dt s)).line := (hc .line (by decide)).trans (hon .line (by decide))
  have hlines : c.line.a = s.line.a ∧ c.line.b = s.line.b := by
    rw [hline, dropAccepted_eq (s := advance dt s) hacc]
    exact ⟨rfl, rfl⟩
  have hhealth : healthDiffers c b = healthDiffers s b := by rw [healthDiffers, healthDiffers, hcfg, hlines.1, hlines.2]
  have hphase : phaseDiffers c b = phaseDiffers (statusHandedOn a b p (dropAccepted (advance dt s))) b := by
    rw [phaseDiffers, phaseDiffers, hc .cfg (by decide), hc .phase (by decide)]
    rfl
  have hsect : sectionsDiffer c b = (s.cfg.cmpSections && b.sections != sectionSummary (event dt s statusWork)) := by
    rw [sectionsDiffer, hcfg, sectionSummary, sectionSummary, hsections, hc .sections (by decide)]
  have hentry : peerAt c a.source = some _ := (peerAt_congr (hc .peers (by decide)) _).trans (peerAt_statusHandedOn hat')
  rw [peerAt_congr (event_peers hp), hwork, hcompare, peerAt_compareStatus hentry, hhealth, hphase, hsect]

/-! ### A STATUS of another layout (R97, R102, R107) -/

/-- LAYOUT_MISMATCH stays through the handling of signals: it ranks above whatever that raises (R173). -/
theorem layoutMismatch_stable (n : Nat) : SignalStable fun s => hasCond s (condOf .layoutMismatch n 0) = true where
  still hc _ _ _ h := (hasCond_congr hc _).trans h
  clears hk h := (hasCond_clearCond_kind (fun he => by rw [← he] at hk; revert hk; simp [signalKinds]) _).trans h
  raises hm h := by
    refine hasCond_raiseCond_of_hasCond (.inr (Nat.le_of_lt ?_)) h
    simp only [signalConds, List.mem_cons, List.not_mem_nil, or_false] at hm
    rcases hm with rfl | rfl | rfl | rfl | rfl | rfl | rfl <;> exact condOf_rank_lt (by decide) _ _ _ _
  releases _ h := hasCond_makeRelease (fun _ => (condOf_rank_lt (by decide) _ _ _ _).le) h

/-- A peer that becomes MISMATCHED raises LAYOUT_MISMATCH (R97). -/
theorem hasCond_setPeerState_mismatched {n : Nat} (hat : peerAt s n = some p) (hne : p.state ≠ .mismatched) (hconds : s.conds.length ≤ 16)
    (hlen : s.sections.length ≤ 6) : hasCond (setPeerState n .mismatched s) (condOf .layoutMismatch n 0) = true := by
  have clears {c : CondId} {x : Prop} [Decidable x] {w : State} (hw : w.conds.length ≤ 16) : (if x then clearCond c w else w).conds.length ≤ 16 := by
    split
    · exact (length_clearCond_le c w).trans hw
    · exact hw
  have hpeer : ∀ x, peerAt s n = some x → x.state ≠ .mismatched := fun x hx => by rwa [← Option.some.inj (hat.symm.trans hx)]
  unfold setPeerState
  split
  next hnone => exact absurd (hat.symm.trans hnone) nofun
  next x hx =>
  rw [if_neg (hpeer x hx)]
  extract_lets p1 p2 s1 s2 s3 s4 s5 s6
  have h4 : s4.conds.length ≤ 16 := clears (clears (clears (w := s1) hconds))
  have hs6 : s6 = raiseCond (condOf .layoutMismatch n 0) s4 := if_pos rfl
  have h6 : s6.conds.length ≤ 17 := by
    rw [hs6]
    exact (length_raiseCond_le _ s4).trans (by omega)
  have hc6 : hasCond s6 (condOf .layoutMismatch n 0) = true := by
    rw [hs6]
    exact hasCond_raiseCond (by omega)
  have hk6 : KeptBut [.peers, .conds, .notices] s s6 := by
    have hc {c : CondId} {x : Prop} [Decidable x] {w : State} : KeptBut [.peers, .conds, .notices] w (if x then clearCond c w else w) :=
      KeptBut.ite (fun _ => (clearCond_kept _ _).mono (by decide)) fun _ => KeptBut.refl _ _
    rw [hs6]
    exact (((((putPeer_kept p2 s).mono (by decide)).trans hc).trans hc).trans hc).trans ((raiseCond_kept _ s4).mono (by decide))
  split
  · refine hasCond_mapSects (by simp [sectKinds]) ?_ hc6
    have hcount (ids : List Nat) : (sectionsOfDps s6 ids).length ≤ 6 := by
      refine (List.length_filter_le _ _).trans ?_
      rw [List.length_map, hk6 .sections (by decide)]
      exact hlen
    have := hcount (dpsOf s6 n)
    show s6.conds.length + _ ≤ 31
    omega
  · exact hc6

/-- A change of an entry's state is one that the phase unit evaluates (R106). -/
theorem setPeerState_evaluated {n : Nat} {st : PeerState} (hat : peerAt s n = some p) (hne : p.state ≠ st) :
    phaseInputsChanged s (setPeerState n st s) = true := by
  by_contra hsame
  have hw := (phaseInputsChanged_false (eq_false_of_ne_true hsame)).2
  rw [setPeerState_peers hat hne] at hw
  replace hw : (s.peers.map fun x => if x.station = (p.moved st).station then p.moved st else x).map Peer.watched = s.peers.map Peer.watched := hw
  rw [List.map_map] at hw
  have hp := congrArg Prod.fst (List.map_inj_left.1 hw p (List.mem_of_find?_eq_some hat))
  replace hp : (if p.station = (p.moved st).station then p.moved st else p).state = p.state := hp
  rw [if_pos (Peer.moved_published st p).station.symm, Peer.moved_state] at hp
  exact hne hp.symm

/-- The entry at the end of the event of a STATUS with another digest, with what follows it (R97, R102, R107). -/
theorem statusTaken_mismatches (hp : s.powered = true) (hacc : s.line.accepted = a :: rest) (hb : a.body = .status b)
    (hat : peerAt s a.source = some p) (hj : s.join.state = .joined) (hd : b.digest ≠ s.digest) (hne : p.state ≠ .mismatched)
    (hconds : s.conds.length ≤ 16) (hlen : s.sections.length ≤ 6) (hphase : s.phase.phase ≠ .starting) :
    peerAt (event dt s statusWork) a.source
        = some (Peer.moved .mismatched { p.grow ((s.clock.frac + dt) / 1000) with lastHeard := some a.endMs })
      ∧ hasCond (event dt s statusWork) (condOf .layoutMismatch a.source 0) = true ∧ (event dt s statusWork).phase.phase = .failed := by
  have hata : peerAt (advance dt s) a.source = some (p.grow ((s.clock.frac + dt) / 1000)) := by
    rw [peerAt_advance, hat]
    rfl
  have hdrop := dropAccepted_kept (advance dt s)
  have hat' : peerAt (dropAccepted (advance dt s)) a.source = some (p.grow ((s.clock.frac + dt) / 1000)) :=
    (peerAt_congr (hdrop .peers (by decide)) _).trans hata
  generalize hv : mapPeer a.source (fun q => { q with lastHeard := some a.endMs }) (dropAccepted (advance dt s)) = v
  have hvk : KeptBut [.line, .peers] (advance dt s) v := by
    rw [← hv]
    exact (hdrop.mono (by decide)).trans ((mapPeer_kept _ _ _).mono (by decide))
  have hatv : peerAt v a.source = some { p.grow ((s.clock.frac + dt) / 1000) with lastHeard := some a.endMs } := by
    rw [← hv]
    exact peerAt_mapPeer (f := fun q => { q with lastHeard := some a.endMs }) (fun _ => rfl) hat'
  have hwork : statusWork (advance dt s) = (setPeerState a.source .mismatched v, []) := by
    rw [statusWork_joined (s := advance dt s) hacc hb hat' hj, hv]
    exact congrArg (·, []) (if_neg hd)
  have hentry : peerAt (setPeerState a.source .mismatched v) a.source
      = some (Peer.moved .mismatched { p.grow ((s.clock.frac + dt) / 1000) with lastHeard := some a.endMs }) := by
    rw [peerAt_setPeerState hatv, if_pos rfl]
  have hchanged : phaseInputsChanged (advance dt s) (setPeerState a.source .mismatched v) = true := by
    have hheard : phaseInputsChanged (advance dt s) v = false := by
      refine phaseInputsChanged_mapPeer (n := a.source) (f := fun q => { q with lastHeard := some a.endMs }) (fun _ => rfl) ?_ ?_
      · exact hvk .sections (by decide)
      · rw [← hv, mapPeer_peers, mapPeer_peers, hdrop .peers (by decide)]
    obtain ⟨hs, hps⟩ := phaseInputsChanged_false hheard
    rw [phaseInputsChanged, ← hs, ← hps]
    exact setPeerState_evaluated hatv hne
  refine ⟨?_, ?_, ?_⟩
  · rw [peerAt_congr (event_peers hp), hwork]
    exact hentry
  · refine (layoutMismatch_stable a.source).event hp ?_
    rw [hwork]
    refine hasCond_setPeerState_mismatched hatv hne ?_ ?_
    · rw [(hvk .conds (by decide)).1]
      exact hconds
    · rw [hvk .sections (by decide)]
      exact hlen
  · have hmoved : (setPeerState a.source .mismatched v).phase.phase = s.phase.phase := by
      refine ((tabled_stable v).setPeerState _ _ (Tabled.refl v)).phase.trans ?_
      rw [hvk .phase (by decide)]
      rfl
    have hdemand : ∃ q ∈ (setPeerState a.source .mismatched v).peers, q.state ≠ .live :=
      ⟨_, List.mem_of_find?_eq_some hentry, by rw [Peer.moved_state]; decide⟩
    rw [event_eq hp, conclude_phase, hwork, hchanged]
    exact (drain_failing hdemand (by rw [hmoved]; exact hphase) 1023 []).2

end

/-- Settles O46: the entry takes the frame's fields and is compared last, or becomes MISMATCHED with its published fields kept. -/
theorem statusIsEnteredOrMismatched : Obligations.StatusIsEnteredOrMismatched := by
  intro dt s a rest b p hp hacc hb hat hj
  refine ⟨fun s1 hs1 hd => ?_, fun hd hne hconds hlen hphase => ?_⟩
  · have hentry := statusTaken_enters (dt := dt) hp hacc hb hat hj hd
    have hon : s1 = statusHandedOn a b p (dropAccepted (advance dt s)) := by
      rw [dropAccepted_eq (s := advance dt s) hacc]
      exact hs1
    rw [← hon] at hentry
    exact ⟨_, _, exec_statusTaken dt s, statusTaken_accepted hp hacc hb hat hj, hentry, rfl, rfl, rfl, rfl, rfl, rfl, rfl, rfl, rfl, rfl, rfl, rfl, rfl,
      rfl, rfl, rfl, rfl, rfl⟩
  · obtain ⟨hentry, hcond, hfailed⟩ := statusTaken_mismatches (dt := dt) hp hacc hb hat hj hd hne hconds hlen hphase
    have hpub := Peer.moved_published .mismatched { p.grow ((s.clock.frac + dt) / 1000) with lastHeard := some a.endMs }
    exact ⟨_, _, exec_statusTaken dt s, statusTaken_accepted hp hacc hb hat hj, hentry, Peer.moved_state _ _, hpub.lastHeard, hpub.lastStatus,
      hpub.phase, hpub.dps, hpub.conds, hcond, hfailed⟩

end Sys2Proof.Machine
end

section
/-! ## The state after reset keeps every law (R105, R127, R137, R151, R174, R194) -/

namespace Sys2Proof.Machine

/-- After reset the phase is STARTING (R105). -/
theorem phaseLaw_reset : PhaseLaw State.reset :=
  ⟨fun h => absurd rfl h, fun h => absurd h (by decide)⟩

/-- After reset the station is in LOADING, where no list is walked, and its phase is STARTING (R105, R127, R137). -/
theorem seqLaw_reset : SeqLaw State.reset :=
  ⟨fun h => absurd rfl h, fun _ h => absurd h (by decide)⟩

/-- After reset neither barrier output is driven (R151). -/
theorem barrierLaw_reset : BarrierLaw State.reset :=
  ⟨fun h => absurd h (by decide), fun h => absurd h (by decide)⟩

theorem condLaw_reset : CondLaw State.reset := ⟨rfl, Nat.zero_le 31⟩

theorem noticeLaw_reset : NoticeLaw State.reset := ⟨rfl, Nat.zero_le 16, rfl⟩

/-- After reset no section record is built yet (R40, R192). -/
theorem sectionLaw_reset : SectionLaw State.reset := fun _ hr => absurd hr List.not_mem_nil

/-- Settles O2, law by law: after reset the tables, the condition set and the queues are empty, the phase is STARTING and nothing is driven. -/
theorem resetKeepsEveryLaw : Obligations.ResetKeepsEveryLaw :=
  ⟨Memory.wf_reset, phaseLaw_reset, seqLaw_reset, barrierLaw_reset, condLaw_reset, noticeLaw_reset, sectionLaw_reset, queueLaw_empty rfl rfl⟩

end Sys2Proof.Machine
end

section
/-! ## What the own work of each command touches (`touches`): the work of the blocks, as far as Laws/Frames and Laws/Blocks do not say it -/

namespace Sys2Proof.Machine

/-! ### Changes of one part alone -/

theorem changedFlash_kept (u : FlashUnit) (s : State) : KeptBut [.flash] s { s with flash := u } := by
  intro p hp; cases p <;> first | rfl | exact ⟨rfl, rfl⟩ | exact absurd (by decide) hp

theorem changedKey_kept (f : InputFilter) (s : State) : KeptBut [.key] s { s with key := f } := by
  intro p hp; cases p <;> first | rfl | exact ⟨rfl, rfl⟩ | exact absurd (by decide) hp

theorem changedPhase_kept (u : PhaseUnit) (s : State) : KeptBut [.phase] s { s with phase := u } := by
  intro p hp; cases p <;> first | rfl | exact ⟨rfl, rfl⟩ | exact absurd (by decide) hp

theorem changedPort_kept (u : PortUnit) (s : State) : KeptBut [.port] s { s with port := u } := by
  intro p hp; cases p <;> first | rfl | exact ⟨rfl, rfl⟩ | exact absurd (by decide) hp

theorem changedNotices_kept (u : NoticeUnit) (s : State) : KeptBut [.notices] s { s with notices := u } := by
  intro p hp; cases p <;> first | rfl | exact ⟨rfl, rfl⟩ | exact absurd (by decide) hp

theorem changedLatches_kept (l : Latches) (s : State) : KeptBut [.latches] s { s with latches := l } := by
  intro p hp; cases p <;> first | rfl | exact ⟨rfl, rfl⟩ | exact absurd (by decide) hp

theorem changedDps_kept (l : List DpUnit) (s : State) : KeptBut [.dps] s { s with dps := l } := by
  intro p hp; cases p <;> first | rfl | exact ⟨rfl, rfl⟩ | exact absurd (by decide) hp

theorem changedPeers_kept (l : List Peer) (s : State) : KeptBut [.peers] s { s with peers := l } := by
  intro p hp; cases p <;> first | rfl | exact ⟨rfl, rfl⟩ | exact absurd (by decide) hp

theorem changedFirstFault_kept (r : Option FirstFault) (s : State) : KeptBut [.firstFault] s { s with firstFault := r } := by
  intro p hp; cases p <;> first | rfl | exact ⟨rfl, rfl⟩ | exact absurd (by decide) hp

theorem changedPowered_kept (b : Bool) (s : State) : KeptBut [.powered] s { s with powered := b } := by
  intro p hp; cases p <;> first | rfl | exact ⟨rfl, rfl⟩ | exact absurd (by decide) hp

/-! ### The way out of CALIBRATING (R87) -/

/-- The parts that a sweep's work may reach with the way out of CALIBRATING behind it (R87). -/
def sweepLeaveParts : List Part := .join :: .line :: sweepParts

theorem leaveCalibrating_after {s t : State} (h : KeptBut sweepParts s t) : KeptBut sweepLeaveParts s (leaveCalibrating t) :=
  (h.mono (by decide)).trans ((leaveCalibrating_kept t).mono (by decide))

/-! ### The flash timebase and the lamps (R146 to R148) -/

theorem cycleBoundary_kept (t : Time) (s : State) : KeptBut [.flash, .lights, .dci, .latches] s (cycleBoundary t s) := by
  unfold cycleBoundary
  extract_lets s1
  have h1 : KeptBut [.flash, .lights, .dci, .latches] s s1 :=
    KeptBut.ite (fun _ => (setLatch_kept _ s).mono (by decide)) fun _ => KeptBut.refl _ s
  exact (h1.trans ((changedFlash_kept _ s1).mono (by decide))).trans ((halfBoundary_kept _ _).mono (by decide))

theorem lampTest_kept (p : LampPulse) (c : LampCurrents) (s : State) : KeptBut [.lights, .conds, .notices] s (lampTest p c s) := by
  have test (b : Bool) (a : Aspect) (lim : Limits) (x y : Nat) (w : State) :
      KeptBut [.lights, .conds, .notices] w (if b then aspectTest a lim x y w else w) :=
    KeptBut.ite (fun _ => aspectTest_kept a lim x y w) fun _ => KeptBut.refl _ w
  exact (((putLights_kept _ s).mono (by decide)).trans (test _ _ _ _ _ _)).trans ((test _ _ _ _ _ _).trans (test _ _ _ _ _ _))

/-! ### The barrier and the 1 ms inputs (R152, R155, R156, R193) -/

theorem contactSample_kept (c : Contact) (x : Bool) (s : State) : KeptBut [.barrier, .conds, .notices] s (contactSample c x s).1 := by
  unfold contactSample
  split
  · exact KeptBut.refl _ s
  · extract_lets s1
    have h1 : KeptBut [.barrier, .conds, .notices] s s1 := changedBarrier_kept _ s
    split
    · exact h1.trans (contactSet_kept _ _ s1)
    · exact h1

theorem keySample_kept (x : Bool) (s : State) : KeptBut [.key] s (keySample x s) := by
  unfold keySample
  split
  · exact KeptBut.refl _ s
  · exact changedKey_kept _ s

theorem travelEnd_kept (s : State) : KeptBut [.barrier, .conds, .notices] s (travelEnd s).1 := by
  unfold travelEnd
  split
  · exact (changedBarrier_kept _ s).trans (barrierSettle_kept _)
  · exact ((changedBarrier_kept _ s).trans ((raiseCond_kept _ _).mono (by decide))).trans (barrierSettle_kept _)

theorem contactFaultEntry_kept (s : State) : KeptBut [.barrier, .conds, .notices] s (contactFaultEntry s).1 :=
  ((changedBarrier_kept _ s).trans ((raiseCond_kept _ _).mono (by decide))).trans (barrierSettle_kept _)

/-! ### The end of an attempt (R66 to R68, R91) -/

/-- The parts that the end of an attempt may reach: those of the line, and of the end of joining where the first HAIL has been sent. -/
def attemptParts : List Part := .latches :: joinParts

theorem attemptEnd_kept (f : Flight) (s : State) : KeptBut attemptParts s (attemptEnd f s).1 := by
  unfold attemptEnd
  split
  · unfold attemptSent
    extract_lets s1
    have h1 : KeptBut attemptParts s s1 := (frameSent_kept f s).mono (by decide)
    split
    · exact (h1.trans ((putJoin_kept _ s1).mono (by decide))).trans ((testCompletion_kept _).mono (by decide))
    · exact h1
  · exact (attemptFailed_kept f s).mono (by decide)

/-! ### A JOIN taken (R90, R95) -/

/-- A JOIN taken off the hand-over, at its entry and the join record. -/
theorem takeJoin_dropAccepted_kept (a : Accepted) (b : JoinBody) (s : State) : KeptBut joinParts s (takeJoin a b (dropAccepted s)) :=
  ((dropAccepted_kept s).mono (by decide)).trans ((takeJoin_kept a b _).mono (by decide))

/-! ### The signaller line (R168, R170, R171) -/

theorem sigEnd_kept (f : SigFlight) (s : State) : KeptBut [.sig, .notices] s (sigEnd f s) := by
  unfold sigEnd
  extract_lets u s1
  have h1 : KeptBut [.sig, .notices] s s1 := (putSig_kept _ s).mono (by decide)
  split
  · exact h1
  · exact h1.trans ((changedNotices_kept _ s1).mono (by decide))

/-- The bytes left over kept, and the notice list changed (R170, R171). -/
theorem keepRx_notices_kept (left : List RxByte) (u : NoticeUnit) (s : State) : KeptBut [.sig, .notices] s { keepRx left s with notices := u } :=
  ((keepRx_kept left s).mono (by decide)).trans ((changedNotices_kept u _).mono (by decide))

/-! ### The maintainer port (R60, R195, R197) -/

theorem calibrateAct_kept (dp : Nat) (s : State) : KeptBut sweepParts s (calibrateAct dp s) := by
  have port (r : Option Reply) : KeptBut sweepParts s (putPort (.calibrate dp) r s) := (putPort_kept _ r s).mono (by decide)
  have sweep (k : SweepKind) (slot : Slot) : KeptBut sweepParts s (startSweep k slot (putPort (.calibrate dp) none s)) :=
    (port none).trans ((startSweep_kept k slot _).mono (by decide))
  unfold calibrateAct
  split
  · exact port _
  · exact KeptBut.ite (fun _ => sweep _ _) fun _ => KeptBut.ite (fun _ => sweep _ _) fun _ => port _

/-- The parts that RESET SECTION may reach: the reply, the record with what follows it, the transmit queue for the broadcast. -/
def resetSectionParts : List Part := [.port, .sections, .conds, .notices, .phase, .line]

theorem resetAct_kept (sec : Nat) (kind : ResetKind) (s : State) : KeptBut resetSectionParts s (resetAct sec kind s) := by
  have port (r : Option Reply) : KeptBut resetSectionParts s (putPort (.resetSection sec kind) r s) := (putPort_kept _ r s).mono (by decide)
  unfold resetAct
  split
  · exact port _
  · exact ((port _).trans ((applyReset_kept _ _ _).mono (by decide))).trans ((request_kept _ _).mono (by decide))

theorem replyEnd_kept (s : State) : KeptBut [.port] s (replyEnd s) :=
  KeptBut.ite (fun _ => changedPort_kept _ s) fun _ => KeptBut.ite (fun _ => changedPort_kept _ s) fun _ => KeptBut.refl _ s

/-! ### The end of LOADING (R189 to R192) -/

/-- The parts that the end of LOADING may reach: the restart count's, and all that is built from the image. -/
def loadingParts : List Part :=
  [.mem, .restartCount, .freeCount, .cfg, .digest, .dps, .sections, .view, .peers, .join, .line, .flash, .lights, .dci, .conds, .notices, .sig, .phase]

theorem build_kept (im : Image) (d : Half) (s : State) : KeptBut [.cfg, .digest, .dps, .sections, .view, .peers, .join, .dci] s (build im d s) := by
  intro p hp; cases p <;> first | rfl | exact ⟨rfl, rfl⟩ | exact absurd (by decide) hp

/-- The end of LOADING after the restart count, by the load check's finding. -/
theorem loaded_kept (o : LoadOutcome) (s : State) : KeptBut loadingParts s (loaded o s) := by
  have joined (f : JoinUnit → JoinUnit) : KeptBut loadingParts s (putJoin f s) := (putJoin_kept f s).mono (by decide)
  cases o with
  | passed im d clamped =>
    exact ((joined _).trans ((build_kept im d _).mono (by decide))).trans ((loadPassed_built im d clamped s).mono (by decide))
  | declared im d clamped =>
    have service (w : State) : KeptBut loadingParts w (beginService im d clamped w) :=
      ((build_kept im d w).mono (by decide)).trans ((beginService_kept im d clamped w).mono (by decide))
    exact (((joined _).trans (service _)).trans ((raiseCond_kept _ _).mono (by decide))).trans ((request_kept _ _).mono (by decide))
  | blind own => exact (joined _).trans ((raiseCond_kept _ _).mono (by decide))

end Sys2Proof.Machine
end

section
/-! ## Every command touches the parts of its own work and those that follow every event, and no other (R106, R129, R138) -/

namespace Sys2Proof.Machine

/-- Work that touches no part but those listed. -/
def WorksOn (l : List Part) (f : State → Work) : Prop := ∀ s, KeptBut l s (f s).1

namespace WorksOn

variable {l : List Part}

theorem plain {g : State → State} (hg : ∀ s, KeptBut l s (g s)) : WorksOn l (plain g) := hg

theorem guarded {f : State → Work} (hf : WorksOn l f) (c : State → Bool) : WorksOn l (guarded c f) := fun s => by
  unfold Machine.guarded
  split
  · exact hf s
  · exact KeptBut.refl l s

theorem takeCommand (hl : Part.port ∈ l) {cmd : PortCmd} {act : State → State} (ha : ∀ s, KeptBut l s (act s)) :
    WorksOn l (Machine.plain (takeCommand cmd act)) := fun s => takeCommand_kept hl cmd s (ha s)

theorem answered {cmd : PortCmd} {r : State → Reply} : WorksOn [.port] (Machine.plain (answered cmd r)) := answered_kept cmd r

end WorksOn

/-- A command that, where it is no reset, touches only the parts of its own work and those that follow every event. -/
def KeepsFrame (c : Instr) : Prop :=
  ∀ s, resets c s = false → ∃ t, exec c s = .next t ∧ KeptBut (touches c ++ followedParts) (advance c.elapsed s) t

/-- A command keeps its frame where its work touches parts of its own alone: what follows the work in the event touches the followed parts
(`event_kept`). That the parts are the command's own is found by evaluating `touches`. -/
theorem KeepsFrame.of_event {c : Instr} {l : List Part} {f : State → Work} (he : ∀ s, exec c s = .next (event c.elapsed s f))
    (hl : (l.all fun p => decide (p ∈ touches c)) = true) (hf : WorksOn l f) : KeepsFrame c := fun s _ => by
  have hsub : l ⊆ touches c := fun p hp => of_decide_eq_true (List.all_eq_true.mp hl p hp)
  exact ⟨_, he s, event_kept ((hf _).mono hsub)⟩

namespace KeepsFrame

variable (dt : Nat)

/-! ### The end of LOADING, the return of the supply, the end of a reply -/

theorem loadingEnd (answers : Bool) (readBack : Option Byte) : KeepsFrame (.loadingEnd dt answers readBack) :=
  .of_event (l := loadingParts) (fun _ => rfl) rfl (.guarded (.plain fun s =>
    ((countRestart_kept answers readBack s).mono (by decide)).trans (loaded_kept _ _)) _)

theorem supplyRestored : KeepsFrame (.supplyRestored dt) := fun s _ =>
  ⟨_, rfl, (changedPowered_kept true (advance dt s)).mono (List.subset_append_left _ _)⟩

/-- The end of a reply that is not RESTART's is an event at the port. -/
theorem maintainerReplyEnd : KeepsFrame (.maintainerReplyEnd dt) := fun s hr => by
  have hno : ¬(s.powered && restartEnds s) = true := Bool.eq_false_iff.mp hr
  have he : exec (.maintainerReplyEnd dt) s = .next (event dt s (plain replyEnd)) := congrArg Host.Outcome.next (if_neg hno)
  exact ⟨_, he, event_kept (l := [.port]) (replyEnd_kept _)⟩

/-! ### Detection points and calibration (chapter 01) -/

theorem firstCoverAged (slot : Slot) : KeepsFrame (.firstCoverAged dt slot) := .of_event (l := [.dps]) (fun _ => rfl) rfl (.plain fun s => by
  split
  · exact KeptBut.refl _ s
  · exact KeptBut.ite (fun _ => putDp_kept _ s) fun _ => KeptBut.refl _ s)

theorem calibrationTimerExpiry (slot : Slot) : KeepsFrame (.calibrationTimerExpiry dt slot) :=
  .of_event (l := [.dps]) (fun _ => rfl) rfl (.plain fun s => by
    split
    · exact KeptBut.refl _ s
    · exact KeptBut.ite (fun _ => putDp_kept _ s) fun _ => KeptBut.refl _ s)

/-- A PERIODIC sweep starts at a DP that is WORKING, so no fault of it is entered or left (R7, R18). -/
theorem dueSweepStart (slot : Slot) : KeepsFrame (.dueSweepStart dt slot) := .of_event (l := [.dps]) (fun _ => rfl) rfl (.plain fun s => by
  split
  · exact KeptBut.refl _ s
  next u hu =>
    split
    next hc =>
      have hworks : u.state = .working := (sweepConditions_iff.1 hc.2).1
      rw [startSweep_quiet hu (by rw [hworks]; decide)]
      exact putDp_kept _ s
    next => exact KeptBut.refl _ s)

theorem sweepAbandoned (slot : Slot) (cause : AbandonCause) (levels : Levels) : KeepsFrame (.sweepAbandoned dt slot cause levels) :=
  .of_event (l := .latches :: sweepLeaveParts) (fun _ => rfl) rfl (.plain fun s => by
    split
    · exact KeptBut.refl _ s
    split
    · exact KeptBut.refl _ s
    split
    · extract_lets s1
      have h1 : KeptBut (.latches :: sweepLeaveParts) s s1 := (setLatch_kept _ s).mono (by decide)
      split
      · exact h1.trans ((leaveCalibrating_after (abandonStart_kept _ _ _ _ s1)).mono (by decide))
      · exact h1.trans ((abandonSweep_kept _ _ _ _ s1).mono (by decide))
    · exact KeptBut.refl _ s)

/-! ### The phase timers (R119, R120) -/

theorem releaseTimerExpiry : KeepsFrame (.releaseTimerExpiry dt) :=
  .of_event (l := [.phase]) (fun _ => rfl) rfl (.guarded (fun s => changedPhase_kept _ s) _)

theorem standingTestTime (sec : Nat) : KeepsFrame (.standingTestTime dt sec) :=
  .of_event (l := [.phase]) (fun _ => rfl) rfl (.guarded (fun s => changedPhase_kept _ s) _)

/-! ### The flash timebase, the lamps and the indicators (chapters 08 and 09) -/

theorem flashCycleBoundary : KeepsFrame (.flashCycleBoundary dt) :=
  .of_event (l := [.flash, .lights, .dci, .latches]) (fun _ => rfl) rfl (.plain fun s => by
    split
    · exact KeptBut.refl _ s
    · exact cycleBoundary_kept _ s)

theorem flashHalfPoint : KeepsFrame (.flashHalfPoint dt) := .of_event (l := [.flash, .lights, .dci]) (fun _ => rfl) rfl (.guarded (.plain fun s =>
  ((changedFlash_kept _ s).mono (by decide)).trans ((halfBoundary_kept _ _).mono (by decide))) _)

theorem correctionLengthenEnd : KeepsFrame (.correctionLengthenEnd dt) := .of_event (l := [.flash]) (fun _ => rfl) rfl (.plain fun s => by
  split
  · exact KeptBut.refl _ s
  · exact changedFlash_kept _ s)

theorem lampHotSample (a : Aspect) (x y : Nat) : KeepsFrame (.lampHotSample dt a x y) :=
  .of_event (l := [.lights, .conds, .notices]) (fun _ => rfl) rfl (.guarded (.plain fun s =>
    ((putLights_kept _ s).mono (by decide)).trans (aspectResults_kept _ _ _ _ _)) _)

theorem lampTestSample (currents : LampCurrents) : KeepsFrame (.lampTestSample dt currents) :=
  .of_event (l := [.lights, .conds, .notices]) (fun _ => rfl) rfl (.plain fun s => by
    split
    · exact KeptBut.refl _ s
    · exact KeptBut.ite (fun _ => lampTest_kept _ _ s) fun _ => KeptBut.refl _ s)

theorem testPulseEnd (unit : PulseUnit) : KeepsFrame (.testPulseEnd dt unit) := by
  cases unit with
  | lamps => exact .of_event (l := [.lights]) (fun _ => rfl) rfl (.guarded (.plain (endPulse_kept .lamps)) _)
  | dcis => exact .of_event (l := [.dci, .conds, .notices]) (fun _ => rfl) rfl (.guarded (.plain (endPulse_kept .dcis)) _)

theorem dciHotSample (out : Fin 2) (mA : Nat) : KeepsFrame (.dciHotSample dt out mA) :=
  .of_event (l := [.dci, .conds, .notices]) (fun _ => rfl) rfl (.guarded (.plain fun s =>
    ((putDci_kept _ s).mono (by decide)).trans (dciResult_kept _ _ _)) _)

theorem dciTestSample (mA0 mA1 : Nat) : KeepsFrame (.dciTestSample dt mA0 mA1) := .of_event (l := [.dci]) (fun _ => rfl) rfl (.plain fun s => by
  split
  · exact KeptBut.refl _ s
  · exact KeptBut.ite (fun _ => putDci_kept _ s) fun _ => KeptBut.refl _ s)

/-! ### The barrier and the 1 ms inputs (chapter 08) -/

theorem contactChange (contact : Contact) : KeepsFrame (.contactChange dt contact) :=
  .of_event (l := [.barrier, .conds, .notices]) (fun _ => rfl) rfl (.guarded (fun s => by
    split
    · exact KeptBut.refl _ s
    · exact (changedBarrier_kept _ s).trans (contactSet_kept _ _ _)) _)

theorem contactSample (input : FieldInput) (level : Bool) : KeepsFrame (.contactSample dt input level) := by
  cases input with
  | contact c => exact .of_event (fun _ => rfl) rfl (.guarded (contactSample_kept c level) _)
  | key => exact .of_event (fun _ => rfl) rfl (.plain (keySample_kept level))

theorem keyInputChange : KeepsFrame (.keyInputChange dt) := .of_event (l := [.key]) (fun _ => rfl) rfl (.plain fun s => by
  split
  · exact KeptBut.refl _ s
  · exact changedKey_kept _ s)

theorem lockoutLowerTimer : KeepsFrame (.lockoutLowerTimer dt) :=
  .of_event (l := [.join, .barrier, .conds, .notices]) (fun _ => rfl) rfl (.guarded (fun s =>
    ((putJoin_kept _ s).mono (by decide)).trans ((handCommand_kept _ _).mono (by decide))) _)

/-! ### The line controller (chapter 04) -/

theorem idleGapEnd : KeepsFrame (.idleGapEnd dt) := .of_event (l := [.line]) (fun _ => rfl) rfl (.plain fun s => by
  split
  · exact KeptBut.refl _ s
  · exact (putLine_kept _ s).trans (contend_kept _))

theorem frameAttemptEnd : KeepsFrame (.frameAttemptEnd dt) := .of_event (l := attemptParts) (fun _ => rfl) rfl fun s => by
  split
  · exact KeptBut.refl _ s
  split
  · exact attemptEnd_kept _ s
  · exact KeptBut.refl _ s

/-! ### Joining, peers and frames taken (chapters 03 to 05) -/

theorem hailTimer : KeepsFrame (.hailTimer dt) := .of_event (l := [.join, .line]) (fun _ => rfl) rfl (.guarded (.plain fun s =>
  ((putJoin_kept _ s).mono (by decide)).trans ((request_kept_line (by decide) _).mono (by decide))) _)

theorem agreementToleranceReached (n : Nat) : KeepsFrame (.agreementToleranceReached dt n) :=
  .of_event (l := [.peers, .conds, .notices]) (fun _ => rfl) rfl (.guarded (.plain fun s =>
    ((mapPeer_kept _ _ s).mono (by decide)).trans ((raiseCond_kept _ _).mono (by decide))) _)

theorem strikeTaken : KeepsFrame (.strikeTaken dt) :=
  .of_event (l := [.line, .view, .sections, .conds, .notices, .phase]) (fun _ => rfl) rfl (.plain fun s => by
    split
    · exact KeptBut.refl _ s
    split
    · exact ((dropAccepted_kept s).mono (by decide)).trans ((takeStrike_kept _ _ _).mono (by decide))
    iterate 3 exact KeptBut.refl _ s)

theorem statusTaken : KeepsFrame (.statusTaken dt) := .of_event (l := statusParts ++ joinParts) (fun _ => rfl) rfl fun s => by
  split
  · exact KeptBut.refl _ s
  split
  · exact ((dropAccepted_kept s).mono (by decide)).trans (takeStatus_kept _ _ _)
  iterate 3 exact KeptBut.refl _ s

theorem hailTaken : KeepsFrame (.hailTaken dt) := .of_event (l := joinParts) (fun _ => rfl) rfl fun s => by
  split
  · exact KeptBut.refl _ s
  split
  · split
    · exact ((takeJoin_dropAccepted_kept _ _ s).trans ((answerHail_kept _ _).mono (by decide))).trans (testCompletion_kept _)
    · exact KeptBut.refl _ s
  iterate 3 exact KeptBut.refl _ s

theorem answerTaken : KeepsFrame (.answerTaken dt) := .of_event (l := joinParts) (fun _ => rfl) rfl fun s => by
  split
  · exact KeptBut.refl _ s
  split
  · split
    · exact (takeJoin_dropAccepted_kept _ _ s).trans (testCompletion_kept _)
    · exact KeptBut.refl _ s
  iterate 3 exact KeptBut.refl _ s

theorem resetOrderTaken : KeepsFrame (.resetOrderTaken dt) :=
  .of_event (l := [.line, .sections, .conds, .notices, .phase]) (fun _ => rfl) rfl (.plain fun s => by
    have hdrop : KeptBut [.line, .sections, .conds, .notices, .phase] s (dropAccepted s) := (dropAccepted_kept s).mono (by decide)
    split
    · exact KeptBut.refl _ s
    split
    · exact KeptBut.ite (fun _ => hdrop.trans ((applyReset_kept _ _ _).mono (by decide))) fun _ => hdrop
    iterate 3 exact KeptBut.refl _ s)

/-! ### The signaller line (chapter 09) -/

theorem signallerFrameEnd : KeepsFrame (.signallerFrameEnd dt) := .of_event (l := [.sig, .notices]) (fun _ => rfl) rfl (.plain fun s => by
  split
  · exact KeptBut.refl _ s
  · exact KeptBut.ite (fun _ => sigEnd_kept _ s) fun _ => KeptBut.refl _ s)

theorem ack (bytes : List RxByte) : KeepsFrame (.ack dt bytes) := .of_event (l := [.sig, .notices]) (fun _ => rfl) rfl (.plain fun s => by
  split
  · split
    · exact keepRx_notices_kept _ _ s
    iterate 4 exact KeptBut.refl _ s
  · exact KeptBut.refl _ s)

theorem query (bytes : List RxByte) : KeepsFrame (.query dt bytes) := .of_event (l := [.sig, .notices]) (fun _ => rfl) rfl (.plain fun s => by
  split
  · split
    · exact keepRx_notices_kept _ _ s
    iterate 4 exact KeptBut.refl _ s
  · exact KeptBut.refl _ s)

theorem signallerByteTimeout (bytes : List RxByte) : KeepsFrame (.signallerByteTimeout dt bytes) :=
  .of_event (l := [.sig]) (fun _ => rfl) rfl (.plain fun s => KeptBut.ite (fun _ => keepRx_kept _ s) fun _ => KeptBut.refl _ s)

theorem signallerFrameMalformed (bytes : List RxByte) : KeepsFrame (.signallerFrameMalformed dt bytes) :=
  .of_event (l := [.sig]) (fun _ => rfl) rfl (.plain fun s => KeptBut.ite (fun _ => keepRx_kept _ s) fun _ => KeptBut.refl _ s)

/-! ### The maintainer port (chapter 11) -/

theorem showDetection : KeepsFrame (.showDetection dt) := .of_event (l := [.port, .dps]) (fun _ => rfl) rfl (.takeCommand (by decide) fun s =>
  ((putPort_kept _ _ s).mono (by decide)).trans ((changedDps_kept _ _).mono (by decide)))

theorem readLatches : KeepsFrame (.readLatches dt) := .of_event (l := [.port, .latches]) (fun _ => rfl) rfl (.takeCommand (by decide) fun s =>
  ((putPort_kept _ _ s).mono (by decide)).trans ((changedLatches_kept _ _).mono (by decide)))

theorem readMismatches : KeepsFrame (.readMismatches dt) := .of_event (l := [.port, .peers]) (fun _ => rfl) rfl (.takeCommand (by decide) fun s =>
  ((putPort_kept _ _ s).mono (by decide)).trans ((changedPeers_kept _ _).mono (by decide)))

theorem clearFirstFault : KeepsFrame (.clearFirstFault dt) :=
  .of_event (l := [.port, .firstFault]) (fun _ => rfl) rfl (.takeCommand (by decide) fun s =>
    ((putPort_kept _ _ s).mono (by decide)).trans ((changedFirstFault_kept _ _).mono (by decide)))

theorem commandTimeout (bytes : List RxByte) : KeepsFrame (.commandTimeout dt bytes) := .of_event (l := [.port]) (fun _ => rfl) rfl (.plain fun s => by
  split
  · exact changedPort_kept _ s
  iterate 2 exact KeptBut.refl _ s)

end KeepsFrame

/-- Every command keeps its frame: the own work of each touches the parts that `touches` gives it. -/
theorem keepsFrame (c : Instr) : KeepsFrame c := by
  cases c with
  | powerOnReset dt => exact fun s hr => absurd hr (by simp [resets])
  | supplyRestored dt => exact KeepsFrame.supplyRestored dt
  | maintainerReplyEnd dt => exact KeepsFrame.maintainerReplyEnd dt
  | loadingEnd dt answers readBack => exact KeepsFrame.loadingEnd dt answers readBack
  | acceptedEdge dt slot first second => exact .of_event (fun _ => rfl) rfl (.guarded (.plain (takeEdges_kept slot _ _)) _)
  | firstCoverAged dt slot => exact KeepsFrame.firstCoverAged dt slot
  | comparatorSample dt slot head level => exact .of_event (fun _ => rfl) rfl (.plain (takeSample_kept slot head level))
  | headSupplyCheck dt slot head mA levels =>
    exact .of_event (fun _ => rfl) rfl (.plain fun s => leaveCalibrating_after (supplyCheck_kept slot head mA levels s))
  | calibrationTimerExpiry dt slot => exact KeepsFrame.calibrationTimerExpiry dt slot
  | dueSweepStart dt slot => exact KeepsFrame.dueSweepStart dt slot
  | probeWindowEnd dt slot lowest levels =>
    exact .of_event (fun _ => rfl) rfl (.guarded (.plain fun s => leaveCalibrating_after (windowEnd_kept slot lowest levels s)) _)
  | sweepAbandoned dt slot cause levels => exact KeepsFrame.sweepAbandoned dt slot cause levels
  | deadlineExpiry dt sec => exact .of_event (l := []) (fun _ => rfl) rfl (.guarded (fun s => KeptBut.refl [] s) _)
  | releaseTimerExpiry dt => exact KeepsFrame.releaseTimerExpiry dt
  | standingTestTime dt sec => exact KeepsFrame.standingTestTime dt sec
  | dwellEnd dt => exact .of_event (fun _ => rfl) rfl (.guarded (judgeStep_kept walkFuel) _)
  | waitLimitExpiry dt => exact .of_event (fun _ => rfl) rfl (.guarded (endRun_kept .error) _)
  | flashCycleBoundary dt => exact KeepsFrame.flashCycleBoundary dt
  | flashHalfPoint dt => exact KeepsFrame.flashHalfPoint dt
  | correctionLengthenEnd dt => exact KeepsFrame.correctionLengthenEnd dt
  | lampHotSample dt aspect main second => exact KeepsFrame.lampHotSample dt aspect main second
  | lampColdTest dt => exact .of_event (fun _ => rfl) rfl (.guarded (.plain fun s => putLights_kept _ s) _)
  | lampTestSample dt currents => exact KeepsFrame.lampTestSample dt currents
  | testPulseEnd dt unit => exact KeepsFrame.testPulseEnd dt unit
  | contactChange dt contact => exact KeepsFrame.contactChange dt contact
  | contactSample dt input level => exact KeepsFrame.contactSample dt input level
  | deadTimeEnd dt => exact .of_event (fun _ => rfl) rfl barrierSettle_kept
  | travelTimeout dt => exact .of_event (fun _ => rfl) rfl (.guarded travelEnd_kept _)
  | contactFaultTimeout dt => exact .of_event (fun _ => rfl) rfl (.guarded contactFaultEntry_kept _)
  | lockoutLowerTimer dt => exact KeepsFrame.lockoutLowerTimer dt
  | keyInputChange dt => exact KeepsFrame.keyInputChange dt
  | dciHotSample dt out mA => exact KeepsFrame.dciHotSample dt out mA
  | dciColdTest dt => exact .of_event (fun _ => rfl) rfl (.guarded (.plain fun s => putDci_kept _ s) _)
  | dciTestSample dt mA0 mA1 => exact KeepsFrame.dciTestSample dt mA0 mA1
  | carrierStart dt line | endOfCarrier dt line => exact .of_event (fun _ => rfl) rfl (.plain (mapLine_kept _ line))
  | idleGapEnd dt => exact KeepsFrame.idleGapEnd dt
  | holdoffEnd dt => exact .of_event (fun _ => rfl) rfl (.plain contend_kept)
  | readbackMismatch dt line carrierRemains => exact .of_event (fun _ => rfl) rfl (.guarded (.plain (readback_kept line carrierRemains)) _)
  | frameAttemptEnd dt => exact KeepsFrame.frameAttemptEnd dt
  | statusPeriodExpiry dt | statusHoldbackEnd dt => exact .of_event (fun _ => rfl) rfl (.guarded (.plain queueStatus_kept) _)
  | frameReceived dt line bytes => exact .of_event (fun _ => rfl) rfl (.guarded (.plain (receive_kept line bytes)) _)
  | copyFilterEntryExpiry dt => exact .of_event (fun _ => rfl) rfl (.guarded (.plain fun s => putLine_kept _ s) _)
  | lineSilence dt line => exact .of_event (fun _ => rfl) rfl (.guarded (.plain (lineFails_kept line)) _)
  | strikeTaken dt => exact KeepsFrame.strikeTaken dt
  | statusTaken dt => exact KeepsFrame.statusTaken dt
  | hailTaken dt => exact KeepsFrame.hailTaken dt
  | answerTaken dt => exact KeepsFrame.answerTaken dt
  | resetOrderTaken dt => exact KeepsFrame.resetOrderTaken dt
  | hailTimer dt => exact KeepsFrame.hailTimer dt
  | joinWindowEnd dt => exact .of_event (fun _ => rfl) rfl (.guarded endJoining_kept _)
  | peerAgeTimeout dt station => exact .of_event (fun _ => rfl) rfl (.guarded (.plain (setPeerState_kept station .stale)) _)
  | agreementToleranceReached dt station => exact KeepsFrame.agreementToleranceReached dt station
  | infoConditionExpiry dt cond => exact .of_event (fun _ => rfl) rfl (.guarded (.plain (clearCond_kept cond)) _)
  | indicationDue dt => exact .of_event (fun _ => rfl) rfl (.guarded (.plain fun s => putSig_kept _ s) _)
  | noticeSpacingEnd dt => exact .of_event (fun _ => rfl) rfl (.plain transmit_kept)
  | signallerFrameEnd dt => exact KeepsFrame.signallerFrameEnd dt
  | ack dt bytes => exact KeepsFrame.ack dt bytes
  | query dt bytes => exact KeepsFrame.query dt bytes
  | signallerByteTimeout dt bytes => exact KeepsFrame.signallerByteTimeout dt bytes
  | signallerFrameMalformed dt bytes => exact KeepsFrame.signallerFrameMalformed dt bytes
  | showPeers dt | showSections dt | showNotices dt | showFirstFault dt | restart dt => exact .of_event (fun _ => rfl) rfl .answered
  | showDetection dt => exact KeepsFrame.showDetection dt
  | readLatches dt => exact KeepsFrame.readLatches dt
  | readMismatches dt => exact KeepsFrame.readMismatches dt
  | calibrate dt dp => exact .of_event (fun _ => rfl) rfl (.takeCommand (by decide) (calibrateAct_kept dp))
  | resetSection dt sec kind => exact .of_event (fun _ => rfl) rfl (.takeCommand (by decide) (resetAct_kept sec kind))
  | clearFirstFault dt => exact KeepsFrame.clearFirstFault dt
  | unknownCommand dt bytes => exact .of_event (fun _ => rfl) rfl (.guarded .answered _)
  | commandWhileBusy dt bytes => exact .of_event (fun _ => rfl) rfl (.guarded (.plain busyPort_kept) _)
  | commandTimeout dt bytes => exact KeepsFrame.commandTimeout dt bytes

/-- Settles O5: an event touches the parts of its work and the followed parts, and the own work of every command is within its parts. -/
theorem everyCommandTouchesOnlyItsParts : Obligations.EveryCommandTouchesOnlyItsParts := by
  unfold Obligations.EveryCommandTouchesOnlyItsParts
  exact keepsFrame

end Sys2Proof.Machine
end
